-- ==== Sys2Proof/Word.lean ====
section
/-! DEFINITION. The value types of the MRE block (spec/00_scope.md R9, R10; spec/10_state.md R19; spec/20_memory.md R66):
bytes, 16-bit register values, 9-bit slot indexes, and one host bus write. Every value is unsigned. -/

namespace Sys2Proof

/-- A byte, 0..255 (R10). -/
abbrev Byte := BitVec 8

/-- A register value, 0..0xFFFF (R10). -/
abbrev Word := BitVec 16

/-- A register slot index, the 9-bit `bus_idx` (R19, R64). -/
abbrev SlotIdx := BitVec 9

/-- One host bus write `MemWrite(idx, 2, v)`: the slot index on `bus_idx` and the value on `bus_wdata` (R12, R19, R66). -/
structure BusWrite where
  slot  : SlotIdx
  value : Word
  deriving DecidableEq, Repr

end Sys2Proof
end

