-- ==== Sys2Proof/Machine/Bits.lean ====
section
/-! DEFINITION. Byte order, bit fields and saturation (spec/00_scope.md R9, R10; spec/20_memory.md R73, R74, R76). -/

namespace Sys2Proof.Machine

/-- `hi(v) = v[15:8]` (R10). -/
def hiByte (v : Word) : Byte := v.extractLsb' 8 8

/-- `lo(v) = v[7:0]` (R10). -/
def loByte (v : Word) : Byte := v.extractLsb' 0 8

/-- `a ++ b` of two bytes, with `a` in the high-order position (R10). -/
def catBytes (a b : Byte) : Word := a ++ b

/-- The word whose only set bit, if any, is bit k, and it is set when b holds (R9). -/
def bitIf (b : Bool) (k : Nat) : Word := if b then 1#16 <<< k else 0#16

/-- `sat16(v + 1)`: one up, staying at 0xFFFF (R10, R38, R43, R44). -/
def satInc (v : Word) : Word := if v = 0xFFFF#16 then v else v + 1#16

end Sys2Proof.Machine
end

