-- ==== Sys2Proof/Machine/Bus.lean ====
section
/-! DEFINITION. The register space (spec/10_state.md R22; spec/20_memory.md R64, R67, R69, R70): what each of the 512 slots
names, and the plain register writes, which are host writes that are no row of spec/opcode_table.json. -/

namespace Sys2Proof.Machine

/-- The 33 named registers, in slot order 0x000..0x020 (R22). -/
inductive Reg where
  | ctrl | status | irqEn | cmd | errCode | unitId | func | startAddr | quantity | expUnit | crc | crcData
  | txLen | txPos | txTimeout | txElapsed | rxLen | maxRx | rxTimeout | gapTicks | rxElapsed | rxSilence
  | rxEnd | result | respUnit | respFc | rxCrc | payOff | payLen | mbTid | mbPid | mbLen | tcpPort
  deriving DecidableEq, Repr

/-- What a slot index names: a register, a byte of TXBUF or of RXBUF, or a reserved slot (R22, R67, R70). -/
inductive Slot where
  | reg (r : Reg)
  | txbuf (i : Fin 8)
  | rxbuf (i : Fin 256)
  | reserved
  deriving DecidableEq, Repr

/-- The register at a slot number, the `idx` column of R22. -/
def regAt : Nat → Option Reg
  | 0x000 => some .ctrl
  | 0x001 => some .status
  | 0x002 => some .irqEn
  | 0x003 => some .cmd
  | 0x004 => some .errCode
  | 0x005 => some .unitId
  | 0x006 => some .func
  | 0x007 => some .startAddr
  | 0x008 => some .quantity
  | 0x009 => some .expUnit
  | 0x00A => some .crc
  | 0x00B => some .crcData
  | 0x00C => some .txLen
  | 0x00D => some .txPos
  | 0x00E => some .txTimeout
  | 0x00F => some .txElapsed
  | 0x010 => some .rxLen
  | 0x011 => some .maxRx
  | 0x012 => some .rxTimeout
  | 0x013 => some .gapTicks
  | 0x014 => some .rxElapsed
  | 0x015 => some .rxSilence
  | 0x016 => some .rxEnd
  | 0x017 => some .result
  | 0x018 => some .respUnit
  | 0x019 => some .respFc
  | 0x01A => some .rxCrc
  | 0x01B => some .payOff
  | 0x01C => some .payLen
  | 0x01D => some .mbTid
  | 0x01E => some .mbPid
  | 0x01F => some .mbLen
  | 0x020 => some .tcpPort
  | _ => none

/-- What a slot index names: RXBUF is 0x100..0x1FF, TXBUF is 0x040..0x047, the registers are 0x000..0x020, and
0x021..0x03F and 0x048..0x0FF are reserved (R22, R70). -/
def slotOf (idx : SlotIdx) : Slot :=
  if 0x100 ≤ idx.toNat then
    .rxbuf ⟨idx.toNat - 0x100, by have := idx.isLt; omega⟩
  else if h : 0x040 ≤ idx.toNat ∧ idx.toNat < 0x048 then
    .txbuf ⟨idx.toNat - 0x040, by omega⟩
  else
    match regAt idx.toNat with
    | some r => .reg r
    | none => .reserved

/-- A host write that is no row of the opcode table: the register it goes to and the bits of the value that the
register takes (R69). `ignored` is a write of a read-only register, of TXBUF or of a reserved slot (R22, R69, R70). -/
inductive PlainWrite where
  | status (v : Word)
  | irqEn (v : Word)
  | unitId (b : Byte)
  | func (b : Byte)
  | startAddr (v : Word)
  | quantity (v : Word)
  | expUnit (b : Byte)
  | txTimeout (v : Word)
  | rxLen (v : Word)
  | maxRx (v : Word)
  | rxTimeout (v : Word)
  | gapTicks (v : Word)
  | rxbuf (i : Fin 256) (b : Byte)
  | ignored
  deriving DecidableEq, Repr

end Sys2Proof.Machine
end

