-- ==== Sys2Proof/Syntax.lean ====
section
/-! DEFINITION. The instructions of the MRE block: the mnemonics of spec/opcode_table.json, one constructor each.
An instruction is one 16-bit host bus write (R85, R103): the eight commands and the illegal values written to CMD (R87, R88),
and the register writes that act or have a row of their own (R89, R90, R109). The thirteen ILLEGAL_CMD rows of the table
are a partition of the one range 0x0008..0xFFFF into mask and match pairs, so they are one constructor with its value. -/

namespace Sys2Proof

/-- The instructions of the block. -/
inductive Instr where
  /-- CMD 0x0000 (R156). -/
  | nop
  /-- CMD 0x0001 (R107). -/
  | crcInit
  /-- CMD 0x0002 (R115). -/
  | build
  /-- CMD 0x0003 (R120). -/
  | send
  /-- CMD 0x0004 (R126). -/
  | recv
  /-- CMD 0x0005 (R142). -/
  | validateRtu
  /-- CMD 0x0006 (R149). -/
  | validateTcp
  /-- CMD 0x0007 (R160). -/
  | abort
  /-- A write to CRC_DATA, slot 0x00B, with its data byte D = v[7:0] (R89, R108). -/
  | crcUpdate (d : Byte)
  /-- A write of v to CRC, slot 0x00A (R109). -/
  | crcWrite (v : Word)
  /-- A write to CTRL, slot 0x000, with bit 15 = 1, whose other bits are ignored (R90, R158). -/
  | softReset
  /-- A write to CTRL with bit 15 = 0: the bits EN (0), AUTORX (1) and BAUD (4:2) of the written value (R90, R159). -/
  | ctrlWrite (en autorx : Bool) (baud : BitVec 3)
  /-- A write of v, 0x0008..0xFFFF, to CMD (R88). -/
  | illegalCmd (v : Word)
  deriving DecidableEq, Repr

end Sys2Proof
end

