-- ==== Sys2Proof/WellFormed.lean ====
section
/-! DEFINITION. Which instruction terms the encoding has words for. -/

namespace Sys2Proof

/-- The term has an encoding. The one check is that an ILLEGAL_CMD value lies in 0x0008..0xFFFF (R88), since the values
0x0000..0x0007 are the eight commands (R87); every other operand may hold every value of its type (R89, R90, R109). -/
def wellFormed : Instr → Bool
  | .nop => true
  | .crcInit => true
  | .build => true
  | .send => true
  | .recv => true
  | .validateRtu => true
  | .validateTcp => true
  | .abort => true
  | .crcUpdate _ => true
  | .crcWrite _ => true
  | .softReset => true
  | .ctrlWrite _ _ _ => true
  | .illegalCmd v => decide (8 ≤ v.toNat)

end Sys2Proof
end

