-- ==== Sys2Proof/Decode.lean ====
section
/-! DEFINITION. Decoding a host bus write (spec/30_encoding.md R85 to R90, R102 to R104; spec/20_memory.md R69), the
opcode table as data (spec/opcode_table.json), and the encoder. -/

namespace Sys2Proof

open Sys2Proof.Machine

/-- What a host bus write is: an instruction, or the plain register write by whose name it is rejected as an instruction. -/
inductive Decoded where
  | instr (i : Instr)
  | plain (p : PlainWrite)
  deriving DecidableEq, Repr

/-- The command a CMD value names: the whole 16-bit value selects it, and 0x0008..0xFFFF are ILLEGAL_CMD (R86, R87, R88). -/
def decodeCmd (v : Word) : Instr :=
  match v.toNat with
  | 0 => .nop
  | 1 => .crcInit
  | 2 => .build
  | 3 => .send
  | 4 => .recv
  | 5 => .validateRtu
  | 6 => .validateTcp
  | 7 => .abort
  | _ => .illegalCmd v

/-- The operation a CTRL value names: SOFT_RESET when bit 15 is 1, else a configuration write of EN (bit 0), AUTORX (bit 1)
and BAUD (bits 4:2); bits 14:5 are ignored (R23, R90). -/
def decodeCtrl (v : Word) : Instr :=
  if v.getLsbD 15 then .softReset
  else .ctrlWrite (v.getLsbD 0) (v.getLsbD 1) (v.extractLsb' 2 3)

/-- The decoder: every bus write is an instruction, or is rejected by the name of the plain register write it is
(R69, R102). No state enters (R104). -/
def decode (w : BusWrite) : Decoded :=
  match slotOf w.slot with
  | .reg .cmd => .instr (decodeCmd w.value)
  | .reg .crcData => .instr (.crcUpdate (loByte w.value))
  | .reg .crc => .instr (.crcWrite w.value)
  | .reg .ctrl => .instr (decodeCtrl w.value)
  | .reg .status => .plain (.status w.value)
  | .reg .irqEn => .plain (.irqEn w.value)
  | .reg .unitId => .plain (.unitId (loByte w.value))
  | .reg .func => .plain (.func (loByte w.value))
  | .reg .startAddr => .plain (.startAddr w.value)
  | .reg .quantity => .plain (.quantity w.value)
  | .reg .expUnit => .plain (.expUnit (loByte w.value))
  | .reg .txTimeout => .plain (.txTimeout w.value)
  | .reg .rxLen => .plain (.rxLen w.value)
  | .reg .maxRx => .plain (.maxRx w.value)
  | .reg .rxTimeout => .plain (.rxTimeout w.value)
  | .reg .gapTicks => .plain (.gapTicks w.value)
  | .reg .errCode => .plain .ignored
  | .reg .txLen => .plain .ignored
  | .reg .txPos => .plain .ignored
  | .reg .txElapsed => .plain .ignored
  | .reg .rxElapsed => .plain .ignored
  | .reg .rxSilence => .plain .ignored
  | .reg .rxEnd => .plain .ignored
  | .reg .result => .plain .ignored
  | .reg .respUnit => .plain .ignored
  | .reg .respFc => .plain .ignored
  | .reg .rxCrc => .plain .ignored
  | .reg .payOff => .plain .ignored
  | .reg .payLen => .plain .ignored
  | .reg .mbTid => .plain .ignored
  | .reg .mbPid => .plain .ignored
  | .reg .mbLen => .plain .ignored
  | .reg .tcpPort => .plain .ignored
  | .txbuf _ => .plain .ignored
  | .rxbuf i => .plain (.rxbuf i (loByte w.value))
  | .reserved => .plain .ignored

/-- The CTRL value of a configuration write: EN in bit 0, AUTORX in bit 1, BAUD in bits 4:2, and 0 elsewhere (R90). -/
def ctrlValue (en autorx : Bool) (baud : BitVec 3) : Word :=
  0#11 ++ baud ++ BitVec.ofBool autorx ++ BitVec.ofBool en

/-- The encoder: the bus write of an instruction, ignored bits 0 (R87 to R90; the slots of R22). -/
def encode : Instr → BusWrite
  | .nop => ⟨0x003#9, 0x0000#16⟩
  | .crcInit => ⟨0x003#9, 0x0001#16⟩
  | .build => ⟨0x003#9, 0x0002#16⟩
  | .send => ⟨0x003#9, 0x0003#16⟩
  | .recv => ⟨0x003#9, 0x0004#16⟩
  | .validateRtu => ⟨0x003#9, 0x0005#16⟩
  | .validateTcp => ⟨0x003#9, 0x0006#16⟩
  | .abort => ⟨0x003#9, 0x0007#16⟩
  | .crcUpdate d => ⟨0x00B#9, d.setWidth 16⟩
  | .crcWrite v => ⟨0x00A#9, v⟩
  | .softReset => ⟨0x000#9, 0x8000#16⟩
  | .ctrlWrite en autorx baud => ⟨0x000#9, ctrlValue en autorx baud⟩
  | .illegalCmd v => ⟨0x003#9, v⟩

/-- The mnemonic of an instruction in spec/opcode_table.json. -/
def mnemonic : Instr → String
  | .nop => "NOP"
  | .crcInit => "CRC_INIT"
  | .build => "BUILD"
  | .send => "SEND"
  | .recv => "RECV"
  | .validateRtu => "VALIDATE_RTU"
  | .validateTcp => "VALIDATE_TCP"
  | .abort => "ABORT"
  | .crcUpdate _ => "CRC_UPDATE"
  | .crcWrite _ => "CRC_WRITE"
  | .softReset => "SOFT_RESET"
  | .ctrlWrite _ _ _ => "CTRL_WRITE"
  | .illegalCmd _ => "ILLEGAL_CMD"

/-- One row of spec/opcode_table.json: the mnemonic, the slot written, and the mask and match of the value. -/
structure OpcodeRow where
  mnemonic : String
  slot     : SlotIdx
  mask     : Word
  pattern  : Word
  deriving DecidableEq, Repr

/-- The row is written by the bus write w. -/
def rowMatches (r : OpcodeRow) (w : BusWrite) : Bool :=
  w.slot == r.slot && w.value &&& r.mask == r.pattern

/-- The eight command rows of spec/opcode_table.json (R87). -/
def commandRows : List OpcodeRow :=
  [⟨"NOP", 0x003#9, 0xFFFF#16, 0x0000#16⟩, ⟨"CRC_INIT", 0x003#9, 0xFFFF#16, 0x0001#16⟩,
   ⟨"BUILD", 0x003#9, 0xFFFF#16, 0x0002#16⟩, ⟨"SEND", 0x003#9, 0xFFFF#16, 0x0003#16⟩,
   ⟨"RECV", 0x003#9, 0xFFFF#16, 0x0004#16⟩, ⟨"VALIDATE_RTU", 0x003#9, 0xFFFF#16, 0x0005#16⟩,
   ⟨"VALIDATE_TCP", 0x003#9, 0xFFFF#16, 0x0006#16⟩, ⟨"ABORT", 0x003#9, 0xFFFF#16, 0x0007#16⟩]

/-- The four register-write rows of spec/opcode_table.json (R89, R90, R109). -/
def registerWriteRows : List OpcodeRow :=
  [⟨"CRC_UPDATE", 0x00B#9, 0x0000#16, 0x0000#16⟩, ⟨"CRC_WRITE", 0x00A#9, 0x0000#16, 0x0000#16⟩,
   ⟨"SOFT_RESET", 0x000#9, 0x8000#16, 0x8000#16⟩, ⟨"CTRL_WRITE", 0x000#9, 0x8000#16, 0x0000#16⟩]

/-- The thirteen ILLEGAL_CMD rows of spec/opcode_table.json (R88). -/
def illegalRows : List OpcodeRow :=
  [⟨"ILLEGAL_CMD", 0x003#9, 0xFFF8#16, 0x0008#16⟩, ⟨"ILLEGAL_CMD", 0x003#9, 0xFFF0#16, 0x0010#16⟩,
   ⟨"ILLEGAL_CMD", 0x003#9, 0xFFE0#16, 0x0020#16⟩, ⟨"ILLEGAL_CMD", 0x003#9, 0xFFC0#16, 0x0040#16⟩,
   ⟨"ILLEGAL_CMD", 0x003#9, 0xFF80#16, 0x0080#16⟩, ⟨"ILLEGAL_CMD", 0x003#9, 0xFF00#16, 0x0100#16⟩,
   ⟨"ILLEGAL_CMD", 0x003#9, 0xFE00#16, 0x0200#16⟩, ⟨"ILLEGAL_CMD", 0x003#9, 0xFC00#16, 0x0400#16⟩,
   ⟨"ILLEGAL_CMD", 0x003#9, 0xF800#16, 0x0800#16⟩, ⟨"ILLEGAL_CMD", 0x003#9, 0xF000#16, 0x1000#16⟩,
   ⟨"ILLEGAL_CMD", 0x003#9, 0xE000#16, 0x2000#16⟩, ⟨"ILLEGAL_CMD", 0x003#9, 0xC000#16, 0x4000#16⟩,
   ⟨"ILLEGAL_CMD", 0x003#9, 0x8000#16, 0x8000#16⟩]

/-- The 25 rows of spec/opcode_table.json. -/
def opcodeTable : List OpcodeRow :=
  commandRows ++ registerWriteRows ++ illegalRows

/-- The bus write of a table word (notes/assumptions/4). The table gives a row the value written, and its slot is no bit of the
word. Only CRC_UPDATE has a row of one byte, so a word of at most 8 bits is the value of a CRC_DATA write, slot 0x00B; one of 9
to 16 bits is the value of a CMD write, slot 0x003; a wider word holds the slot index in bits 24:16. -/
def tableWrite (nbits w : Nat) : BusWrite :=
  if nbits ≤ 8 then ⟨0x00B#9, BitVec.ofNat 16 w⟩
  else if nbits ≤ 16 then ⟨0x003#9, BitVec.ofNat 16 w⟩
  else ⟨BitVec.ofNat 9 (w / 65536), BitVec.ofNat 16 w⟩

/-- The instruction the decoder reads from a table word. -/
def decodeTableWord (nbits w : Nat) : Option Instr :=
  match decode (tableWrite nbits w) with
  | .instr i => some i
  | .plain _ => none

end Sys2Proof
end

