-- ==== Sys2Proof/Config.lean ====
section
/-! DEFINITION. What the spec fixes for every block (R7) and the one value it leaves free (R181, R187).
T_TICK, the real-time period of a tick, is left out: no rule depends on it (R8). -/

namespace Sys2Proof

/-- FREE VALUE (notes/assumptions/2): the byte that RX[i] holds after power-on number `draw`, until something writes it
("RX[0..256): unspecified. A model draws each byte freely, and no rule may assume a value", R181; R187; U1).
It has no body, so no proof can know it. -/
opaque Config.rxPowerOn : Nat → Nat → Byte

/-- TCP_PORT, hardwired 0x01F6 = 502 (R55). -/
def Config.tcpPort : Word := 0x01F6#16

/-- The function code of every supported read, 3 (R3, R7). -/
def Config.readFunction : Byte := 0x03#8

end Sys2Proof
end

