-- ==== Sys2Proof/Machine/State.lean ====
section
/-! DEFINITION. The state of the MRE block (spec/10_state.md R20, R22 to R60) and of what stands around it: the events
still to come from the host, the line and the tick source, the `rst_n` level, the bytes the line has taken and the last
value on `bus_rdata`. Plain data throughout. -/

namespace Sys2Proof.Machine

/-- CTRL.BAUD, the five legal codes 0..4 (R23). The codes 5, 6 and 7 are never held (WARL-keep, U6). -/
inductive Baud where
  | b9600 | b19200 | b38400 | b57600 | b115200
  deriving DecidableEq, Repr

/-- The ERR_CODE values 0..6 (R163). The codes 7..15 are never produced (U7). -/
inductive ErrCode where
  | none | illegalCmd | busy | cfgErr | portUnavail | noFrame | txTimeout
  deriving DecidableEq, Repr

/-- The RX_END values 0..5 (R45). The codes 6 and 7 are never produced (U7). -/
inductive RxEnd where
  | none | full | gap | window | timeout | abort
  deriving DecidableEq, Repr

/-- The RESULT values 0..7 (R46). The codes 8..15 are never produced (U7). -/
inductive Verdict where
  | none | ok | short | unitMismatch | fcMismatch | crcFail | mbapProto | mbapLen
  deriving DecidableEq, Repr

/-- CTRL: EN (bit 0), AUTORX (bit 1) and BAUD (bits 4:2). Bits 14:5 are reserved and SRST reads 0 (R23). -/
structure Ctrl where
  en     : Bool
  autorx : Bool
  baud   : Baud
  deriving DecidableEq, Repr

/-- STATUS: bits 1 to 8. BUSY, bit 0, is always TXACT OR RXACT and so is computed, and bits 15:9 are reserved (R24). -/
structure Status where
  txact  : Bool
  rxact  : Bool
  done   : Bool
  txdone : Bool
  rxdone : Bool
  rxto   : Bool
  err    : Bool
  drop   : Bool
  deriving DecidableEq, Repr

/-- The receive buffer: (index, byte) pairs, indexes strictly rising and below 256. An unlisted index is one that nothing
has written since power-on; it holds no byte of its own, and reads as the free draw of `Config.rxPowerOn` (R57, R181, R187). -/
abbrev Memory := List Host.Cell

/-- One event of one agent (R18): a host bus write or read, a byte taken or delivered by the line, a tick, or a level on
the `rst_n` pin (R19, R183). -/
inductive Event where
  /-- `MemWrite(idx, 2, v)` by the host. -/
  | memWrite (w : BusWrite)
  /-- `MemRead(idx, 2)` by the host. -/
  | memRead (idx : SlotIdx)
  /-- TxTake: the line pulses `tx_take`. -/
  | txTake
  /-- RxByte(b): the line delivers the byte b. -/
  | rxByte (b : Byte)
  /-- One pulse of `tick`. -/
  | tick
  /-- `rst_n` takes the level: false is low, the block is held in reset. -/
  | rstN (level : Bool)
  deriving DecidableEq, Repr

/-- Why the machine stops. Both reasons are raised by line events only, no instruction raises one, and both are SAFE:
they stand for an access to a buffer byte that the spec says does not exist, in states that no run reaches
(notes/assumptions/6). -/
inductive Fault where
  /-- Raised by TxTake when TXACT = 1 and TX_POS = 8: TX[8] does not exist (R11). Safe: R63 keeps TX_POS below TX_LEN
  while TXACT = 1. -/
  | txIndex
  /-- Raised by RxByte when RXACT = 1 and RX_LEN = 256: RX[256] does not exist (R11). Safe: R132 has RX_LEN below MAX_RX
  before every store. -/
  | rxIndex
  deriving DecidableEq, Repr

/-- Why an instruction has no meaning. No instruction of this model is refused. -/
inductive Refusal where
  /-- An instruction of the opcode table that exec gives no meaning yet. Safe. Raised by nothing: every instruction has
  its meaning. -/
  | notModelled (mnemonic : String)
  deriving DecidableEq, Repr

/-- The machine. The fields down to `rx` are the block's architectural state (R20); the fields after it are the model's
own, for what stands around the block (notes/assumptions/1, 2, 3). CMD and CRC_DATA hold no state (R26, R34), TCP_PORT is
hardwired (R55), and the sequencer state and `irq` are functions of the fields (R58, R60, R170). -/
structure State where
  /-- CTRL (R23). -/
  ctrl      : Ctrl
  /-- STATUS (R24). -/
  status    : Status
  /-- IRQ_EN, enables in bits 8:3 (R25). -/
  irqEn     : Word
  /-- ERR_CODE (R27). -/
  errCode   : ErrCode
  /-- UNIT_ID bits 7:0 (R28). -/
  unitId    : Byte
  /-- FUNC bits 7:0 (R29). -/
  func      : Byte
  /-- START_ADDR (R30). -/
  startAddr : Word
  /-- QUANTITY (R31). -/
  quantity  : Word
  /-- EXP_UNIT bits 7:0 (R32). -/
  expUnit   : Byte
  /-- CRC (R33). -/
  crc       : Word
  /-- TX_LEN, 0 or 8 (R35). -/
  txLen     : Fin 9
  /-- TX_POS, 0..8 (R36). -/
  txPos     : Fin 9
  /-- TX_TIMEOUT (R37). -/
  txTimeout : Word
  /-- TX_ELAPSED (R38). -/
  txElapsed : Word
  /-- RX_LEN, 0..256 (R39). -/
  rxLen     : Fin 257
  /-- MAX_RX, 1..256 (R40). -/
  maxRx     : Fin 257
  /-- RX_TIMEOUT (R41). -/
  rxTimeout : Word
  /-- GAP_TICKS (R42). -/
  gapTicks  : Word
  /-- RX_ELAPSED (R43). -/
  rxElapsed : Word
  /-- RX_SILENCE (R44). -/
  rxSilence : Word
  /-- RX_END (R45). -/
  rxEnd     : RxEnd
  /-- RESULT (R46). -/
  result    : Verdict
  /-- RESP_UNIT bits 7:0 (R47). -/
  respUnit  : Byte
  /-- RESP_FC bits 7:0 (R48). -/
  respFc    : Byte
  /-- RX_CRC (R49). -/
  rxCrc     : Word
  /-- PAY_OFF bits 8:0 (R50). -/
  payOff    : BitVec 9
  /-- PAY_LEN bits 8:0 (R51). -/
  payLen    : BitVec 9
  /-- MB_TID (R52). -/
  mbTid     : Word
  /-- MB_PID (R53). -/
  mbPid     : Word
  /-- MB_LEN (R54). -/
  mbLen     : Word
  /-- The transmit buffer TX[0..8) (R56). -/
  tx        : Vector Byte 8
  /-- The receive buffer RX[0..256): the bytes written since power-on (R57). -/
  rx        : Memory
  /-- Model's own: the number of the power-on whose free draw the unwritten bytes of RX hold (notes/assumptions/2). -/
  rxDraw    : Nat
  /-- Model's own: the events still to come, in the order in which the agents take them (R79, R80; notes/assumptions/1). -/
  pending   : List Event
  /-- Model's own: the bytes the line has taken, in order, the `emit_line` of R12 (notes/assumptions/3). -/
  wire      : List Byte
  /-- The port `bus_rdata`: the value that the last MemRead returned (R19, R68; notes/assumptions/3). -/
  busRdata  : Word
  /-- The port `rst_n`: true is high, the block runs (R19, R183). -/
  rstHigh   : Bool
  deriving DecidableEq, Repr

/-- The machine right after hardware reset: every register at the reset column of R22, TX all zero, RX with nothing
written (R181), `rst_n` high, no event to come, and nothing on the wire or read yet. -/
def State.reset : State where
  ctrl      := { en := false, autorx := true, baud := .b9600 }
  status    := { txact := false, rxact := false, done := false, txdone := false, rxdone := false, rxto := false,
                 err := false, drop := false }
  irqEn     := 0x0000#16
  errCode   := .none
  unitId    := 0x01#8
  func      := 0x03#8
  startAddr := 0x0000#16
  quantity  := 0x0001#16
  expUnit   := 0x01#8
  crc       := 0xFFFF#16
  txLen     := 0
  txPos     := 0
  txTimeout := 1000#16
  txElapsed := 0x0000#16
  rxLen     := 0
  maxRx     := 256
  rxTimeout := 1000#16
  gapTicks  := 4#16
  rxElapsed := 0x0000#16
  rxSilence := 0x0000#16
  rxEnd     := .none
  result    := .none
  respUnit  := 0x00#8
  respFc    := 0x00#8
  rxCrc     := 0x0000#16
  payOff    := 0#9
  payLen    := 0#9
  mbTid     := 0x0000#16
  mbPid     := 0x0000#16
  mbLen     := 0x0000#16
  tx        := #v[0#8, 0#8, 0#8, 0#8, 0#8, 0#8, 0#8, 0#8]
  rx        := []
  rxDraw    := 0
  pending   := []
  wire      := []
  busRdata  := 0x0000#16
  rstHigh   := true

end Sys2Proof.Machine
end

