-- ==== Sys2Proof/Machine/Flags.lean ====
section
/-! DEFINITION. The STATUS flags, the interrupt output and the sequencer state (spec/10_state.md R24, R25, R58, R59;
spec/60_exceptions.md R161, R169, R170). -/

namespace Sys2Proof.Machine

/-- STATUS.BUSY, always TXACT OR RXACT (R24). -/
def State.busy (s : State) : Bool := s.status.txact || s.status.rxact

/-- The STATUS word: BUSY in bit 0, the stored flags in bits 1 to 8, and 0 in bits 15:9 (R24). -/
def State.statusWord (s : State) : Word :=
  bitIf s.busy 0 ||| bitIf s.status.txact 1 ||| bitIf s.status.rxact 2 ||| bitIf s.status.done 3 |||
  bitIf s.status.txdone 4 ||| bitIf s.status.rxdone 5 ||| bitIf s.status.rxto 6 ||| bitIf s.status.err 7 |||
  bitIf s.status.drop 8

/-- `set(DONE)` (R12, R161). -/
def State.setDone (s : State) : State := { s with status.done := true }

/-- The interrupt output, `(x[STATUS] & x[IRQ_EN] & 0x01F8) != 0` (R170). -/
def State.irq (s : State) : Bool := s.statusWord &&& s.irqEn &&& 0x01F8#16 != 0#16

/-- The sequencer state (R58). -/
inductive Fsm where
  | idle | tx | rx
  deriving DecidableEq, Repr

/-- `fsm` is TX when TXACT = 1, RX when RXACT = 1, and IDLE when both are 0; both at once is unreachable (R58). -/
def State.fsm (s : State) : Fsm :=
  if s.status.txact then .tx else if s.status.rxact then .rx else .idle

/-- The port `tx_valid` (R19). -/
def State.txValid (s : State) : Bool := s.status.txact

/-- The port `de`, the RS-485 driver enable (R19, R141). -/
def State.driverEnable (s : State) : Bool := s.status.txact

/-- The port `tx_data`: TX[TX_POS] while `tx_valid` = 1, and 0x00 otherwise (R19). TX_POS = 8 with `tx_valid` = 1 is
unreachable (R63), and reads as 0x00 here (notes/assumptions/6). -/
def State.txData (s : State) : Byte :=
  if s.status.txact then s.tx[s.txPos.val]?.getD 0x00#8 else 0x00#8

/-- The block is quiescent when BUSY = 0 (R199). -/
def State.quiescent (s : State) : Bool := !s.busy

end Sys2Proof.Machine
end

