-- ==== Sys2Proof/Machine/Ops.lean ====
section
/-! DEFINITION. The shared operations: the receive buffer, recording an error and acknowledging it, the receive window,
stopping a transfer, reset, and the host's register reads and plain register writes. -/

namespace Sys2Proof.Machine

/-- The machine with other events to come (R79). -/
def State.setPending (es : List Event) (s : State) : State := { s with pending := es }

/-! ## The receive buffer -/

/-- The byte listed at an index, if any. -/
def Memory.read : Memory → Nat → Option Byte
  | [], _ => none
  | (k, b) :: m, a => if a = k then some b else Memory.read m a

/-- Writes one byte, keeping the indexes strictly rising. -/
def Memory.write : Memory → Nat → Byte → Memory
  | [], a, b => [(a, b)]
  | (k, c) :: m, a, b =>
    if a < k then (a, b) :: (k, c) :: m
    else if a = k then (a, b) :: m
    else (k, c) :: Memory.write m a b

/-- Every index of the list is above `lo` and the indexes are strictly rising and below 256. -/
def Memory.risesAbove : Memory → Nat → Bool
  | [], _ => true
  | (k, _) :: m, lo => decide (lo ≤ k) && decide (k < 256) && Memory.risesAbove m (k + 1)

/-- The canonical form: indexes strictly rising and below 256. An unlisted index holds no byte of its own, so no listed
entry can equal what an unlisted one holds. -/
def Memory.wf (m : Memory) : Bool := Memory.risesAbove m 0

/-- RX[i] (R11, R57): the byte last written there since power-on, else the power-on's free draw (R187). -/
def State.rxAt (s : State) (i : Nat) : Byte :=
  (Memory.read s.rx i).getD (Config.rxPowerOn s.rxDraw i)

/-- `RX[i] <- b` (R57, R132). -/
def State.setRx (s : State) (i : Nat) (b : Byte) : State := { s with rx := Memory.write s.rx i b }

/-! ## Errors: the block's exceptions (R162, R171, R172) -/

/-- What `raise Error(code)` and `record_error(code)` write: ERR_CODE and STATUS.ERR, and nothing else (R12, R162).
A command or write that raises an error ends in this state (R157). -/
def State.raiseError (code : ErrCode) (s : State) : State :=
  { s with errCode := code, status.err := true }

/-- A host write of v to STATUS: each of the bits 3 to 8 whose written bit is 1 is cleared, and clearing ERR (bit 7)
clears ERR_CODE (R24, R27, R69). It is how a host acknowledges an error (R172). -/
def State.clearStatus (v : Word) (s : State) : State :=
  { s with
    status := { s.status with
      done   := s.status.done && !v.getLsbD 3
      txdone := s.status.txdone && !v.getLsbD 4
      rxdone := s.status.rxdone && !v.getLsbD 5
      rxto   := s.status.rxto && !v.getLsbD 6
      err    := s.status.err && !v.getLsbD 7
      drop   := s.status.drop && !v.getLsbD 8 }
    errCode := if v.getLsbD 7 then .none else s.errCode }

/-! ## The receive window and the end of a transfer -/

/-- `arm_rx()` (R125). RX keeps its bytes. -/
def State.armRx (s : State) : State :=
  { s with
    rxLen := 0
    rxElapsed := 0x0000#16
    rxSilence := 0x0000#16
    rxEnd := .none
    result := .none
    status.rxact := true }

/-- `end_rx(reason)` (R127): RXACT falls and RX_END says why; every reason but ABORT sets RXDONE and DONE, and TIMEOUT
sets RXTO. -/
def State.endRx (reason : RxEnd) (s : State) : State :=
  { s with
    rxEnd := reason
    status := { s.status with
      rxact  := false
      rxdone := s.status.rxdone || reason != .abort
      done   := s.status.done || reason != .abort
      rxto   := s.status.rxto || reason == .timeout } }

/-- `abort_transfer()` (R160): an open SEND stops with TX_POS as it stands, and an open receive window ends with ABORT. -/
def State.abortTransfer (s : State) : State :=
  let s₁ := if s.status.txact then { s with status.txact := false } else s
  if s₁.status.rxact then s₁.endRx .abort else s₁

/-! ## Reset -/

/-- `soft_reset()` (R158, R182): every register at its reset value and TX zero; RX keeps its contents. What stands around
the block is untouched: bytes the line has taken stay taken. -/
def State.softReset (s : State) : State :=
  { State.reset with
    rx := s.rx
    rxDraw := s.rxDraw
    pending := s.pending
    wire := s.wire
    busRdata := s.busRdata
    rstHigh := s.rstHigh }

/-- The block while `rst_n` is low: the state of R181, with RX drawn anew and the outputs at their reset values (R183).
The events to come and the bytes the line has taken are not the block's. -/
def State.hardReset (s : State) : State :=
  { State.reset with
    rxDraw := s.rxDraw + 1
    pending := s.pending
    wire := s.wire
    rstHigh := false }

/-! ## Register codes and fields -/

/-- The code of CTRL.BAUD (R23). -/
def Baud.code : Baud → BitVec 3
  | .b9600 => 0#3
  | .b19200 => 1#3
  | .b38400 => 2#3
  | .b57600 => 3#3
  | .b115200 => 4#3

/-- The bit rate a BAUD code selects, in bits per second (R23). No rule uses it (R137). -/
def Baud.rate : Baud → Nat
  | .b9600 => 9600
  | .b19200 => 19200
  | .b38400 => 38400
  | .b57600 => 57600
  | .b115200 => 115200

/-- What BAUD becomes when `code` is written over `old`: the codes 5, 6 and 7 leave it unchanged (R23, WARL-keep). -/
def Baud.written (code : BitVec 3) (old : Baud) : Baud :=
  match code.toNat with
  | 0 => .b9600
  | 1 => .b19200
  | 2 => .b38400
  | 3 => .b57600
  | 4 => .b115200
  | _ => old

/-- The number of an error (R163). -/
def ErrCode.code : ErrCode → Word
  | .none => 0#16
  | .illegalCmd => 1#16
  | .busy => 2#16
  | .cfgErr => 3#16
  | .portUnavail => 4#16
  | .noFrame => 5#16
  | .txTimeout => 6#16

/-- The number of a window's end (R45). -/
def RxEnd.code : RxEnd → Word
  | .none => 0#16
  | .full => 1#16
  | .gap => 2#16
  | .window => 3#16
  | .timeout => 4#16
  | .abort => 5#16

/-- The number of a validation's outcome (R46). -/
def Verdict.code : Verdict → Word
  | .none => 0#16
  | .ok => 1#16
  | .short => 2#16
  | .unitMismatch => 3#16
  | .fcMismatch => 4#16
  | .crcFail => 5#16
  | .mbapProto => 6#16
  | .mbapLen => 7#16

/-- The CTRL word: EN in bit 0, AUTORX in bit 1, BAUD in bits 4:2, and 0 in bits 15:5 (R23). -/
def Ctrl.word (c : Ctrl) : Word :=
  bitIf c.en 0 ||| bitIf c.autorx 1 ||| (c.baud.code.setWidth 16) <<< 2

/-! ## The host's register accesses -/

/-- What a read of a register returns (R22 to R55, R68): CMD and CRC_DATA read 0, STATUS bit 0 reads TXACT OR RXACT. -/
def State.readReg (s : State) : Reg → Word
  | .ctrl => s.ctrl.word
  | .status => s.statusWord
  | .irqEn => s.irqEn
  | .cmd => 0#16
  | .errCode => s.errCode.code
  | .unitId => s.unitId.setWidth 16
  | .func => s.func.setWidth 16
  | .startAddr => s.startAddr
  | .quantity => s.quantity
  | .expUnit => s.expUnit.setWidth 16
  | .crc => s.crc
  | .crcData => 0#16
  | .txLen => BitVec.ofNat 16 s.txLen.val
  | .txPos => BitVec.ofNat 16 s.txPos.val
  | .txTimeout => s.txTimeout
  | .txElapsed => s.txElapsed
  | .rxLen => BitVec.ofNat 16 s.rxLen.val
  | .maxRx => BitVec.ofNat 16 s.maxRx.val
  | .rxTimeout => s.rxTimeout
  | .gapTicks => s.gapTicks
  | .rxElapsed => s.rxElapsed
  | .rxSilence => s.rxSilence
  | .rxEnd => s.rxEnd.code
  | .result => s.result.code
  | .respUnit => s.respUnit.setWidth 16
  | .respFc => s.respFc.setWidth 16
  | .rxCrc => s.rxCrc
  | .payOff => s.payOff.setWidth 16
  | .payLen => s.payLen.setWidth 16
  | .mbTid => s.mbTid
  | .mbPid => s.mbPid
  | .mbLen => s.mbLen
  | .tcpPort => Config.tcpPort

/-- What `MemRead(idx, 2)` returns by what the slot names; a reserved slot reads 0 (R56, R57, R68, R70). -/
def State.readSlot (s : State) : Slot → Word
  | .reg r => s.readReg r
  | .txbuf i => (s.tx[i.val]).setWidth 16
  | .rxbuf i => (s.rxAt i.val).setWidth 16
  | .reserved => 0#16

/-- A host write of RX_LEN: refused while RXACT = 1; a value above 256 leaves it unchanged (R39, R69). -/
def State.writeRxLen (v : Word) (s : State) : State :=
  if s.status.rxact then s.raiseError .busy
  else if h : v.toNat < 257 then { s with rxLen := ⟨v.toNat, h⟩ }
  else s

/-- A host write of MAX_RX: refused while RXACT = 1; 0 or a value above 256 leaves it unchanged (R40, R69). -/
def State.writeMaxRx (v : Word) (s : State) : State :=
  if s.status.rxact then s.raiseError .busy
  else if h : 1 ≤ v.toNat ∧ v.toNat < 257 then { s with maxRx := ⟨v.toNat, h.2⟩ }
  else s

/-- A host write of RXBUF[i]: refused while RXACT = 1 (R57, R69). -/
def State.writeRxbuf (i : Fin 256) (b : Byte) (s : State) : State :=
  if s.status.rxact then s.raiseError .busy else s.setRx i.val b

/-- The effect of a plain register write (R69). -/
def State.writePlain (s : State) : PlainWrite → State
  | .status v => s.clearStatus v
  | .irqEn v => { s with irqEn := v &&& 0x01F8#16 }
  | .unitId b => { s with unitId := b }
  | .func b => { s with func := b }
  | .startAddr v => { s with startAddr := v }
  | .quantity v => { s with quantity := v }
  | .expUnit b => { s with expUnit := b }
  | .txTimeout v => { s with txTimeout := v }
  | .rxLen v => s.writeRxLen v
  | .maxRx v => s.writeMaxRx v
  | .rxTimeout v => { s with rxTimeout := v }
  | .gapTicks v => { s with gapTicks := v }
  | .rxbuf i b => s.writeRxbuf i b
  | .ignored => s

end Sys2Proof.Machine
end

