-- ==== Sys2Proof/Machine/Control.lean ====
section
/-! DEFINITION. Command dispatch and control (spec/45_control.md): NOP, ABORT, SOFT_RESET, the CTRL configuration write and
the illegal commands. -/

namespace Sys2Proof.Machine

/-- NOP: no effect, DONE not set (R156). -/
def execNop (s : State) : Host.Outcome State Fault Refusal := .next s

/-- ABORT (R160): accepted in every state. -/
def execAbort (s : State) : Host.Outcome State Fault Refusal := .next s.abortTransfer.setDone

/-- SOFT_RESET (R158): accepted in every state. -/
def execSoftReset (s : State) : Host.Outcome State Fault Refusal := .next s.softReset

/-- `ctrl_write` with SRST = 0 (R159): EN, AUTORX and a legal BAUD are written, and clearing EN while BUSY aborts the
transfer and sets DONE. -/
def execCtrlWrite (en autorx : Bool) (baud : BitVec 3) (s : State) : Host.Outcome State Fault Refusal :=
  let s₁ := { s with ctrl := { en := en, autorx := autorx, baud := Baud.written baud s.ctrl.baud } }
  if s.ctrl.en && !en && s.busy then .next s₁.abortTransfer.setDone
  else .next s₁

/-- A CMD value 0x0008..0xFFFF: the error ILLEGAL_CMD is recorded, in every state; the value is not kept (R88, R163). -/
def execIllegalCmd (_v : Word) (s : State) : Host.Outcome State Fault Refusal :=
  .next (s.raiseError .illegalCmd)

end Sys2Proof.Machine
end

