-- ==== Sys2Proof/Machine/Crc.lean ====
section
/-! DEFINITION. The CRC-16/Modbus engine (spec/40_crc.md): the function, CRC_INIT, CRC_UPDATE and the CRC write. -/

namespace Sys2Proof.Machine

/-- One pass of the inner loop: the low bit is tested before the shift (R106). -/
def crcBit (c : Word) : Word :=
  if c.getLsbD 0 then (c >>> 1) ^^^ 0xA001#16 else c >>> 1

/-- n passes of the inner loop (R106). -/
def crcBits : Nat → Word → Word
  | 0, c => c
  | n + 1, c => crcBits n (crcBit c)

/-- `crc_step(c, b)` (R106). -/
def crcStep (c : Word) (b : Byte) : Word := crcBits 8 (c ^^^ b.setWidth 16)

/-- The loop of R105 over a byte sequence, from any register value (R105, R113). -/
def crcFrom (c : Word) (s : List Byte) : Word := s.foldl crcStep c

/-- `crc16(s)`: the loop from 0xFFFF (R105). -/
def crc16 (s : List Byte) : Word := crcFrom 0xFFFF#16 s

/-- CRC_INIT (R107). -/
def execCrcInit (s : State) : Host.Outcome State Fault Refusal :=
  .next { s with crc := 0xFFFF#16 }.setDone

/-- CRC_UPDATE, a write of the data byte d to CRC_DATA: DONE is not set (R108). -/
def execCrcUpdate (d : Byte) (s : State) : Host.Outcome State Fault Refusal :=
  .next { s with crc := crcStep s.crc d }

/-- CRC write (R109). -/
def execCrcWrite (v : Word) (s : State) : Host.Outcome State Fault Refusal :=
  .next { s with crc := v }

end Sys2Proof.Machine
end

