-- ==== Sys2Proof/Machine/Operands.lean ====
section
/-! DEFINITION. The operands of the commands: the request fields, the received frame, and the fields of an RTU response
and of a Modbus-TCP ADU (spec/10_state.md R21, R28 to R32; spec/30_encoding.md R91 to R97). -/

namespace Sys2Proof.Machine

/-- The unit ID range that BUILD accepts, 1..247 (R7, R116). -/
def unitInRange (u : Byte) : Bool := decide (1 ≤ u.toNat) && decide (u.toNat ≤ 247)

/-- The six bytes of a request before its CRC, 16-bit fields high byte first (R91, R92, R73). -/
def State.requestHead (s : State) : List Byte :=
  [s.unitId, s.func, hiByte s.startAddr, loByte s.startAddr, hiByte s.quantity, loByte s.quantity]

/-- The 8 bytes of a request with CRC c, which goes low byte first (R91, R92, R93, R74). -/
def State.requestFrame (s : State) (c : Word) : Vector Byte 8 :=
  #v[s.unitId, s.func, hiByte s.startAddr, loByte s.startAddr, hiByte s.quantity, loByte s.quantity,
     loByte c, hiByte c]

/-- RX[0..n) (R11). -/
def State.rxBytes (s : State) (n : Nat) : List Byte := (List.range n).map s.rxAt

/-- RX[i] ++ RX[i+1], a big-endian field (R76, R148). -/
def State.rxWord (s : State) (i : Nat) : Word := catBytes (s.rxAt i) (s.rxAt (i + 1))

/-- The CRC that a frame of n bytes carries, RX[n-1] ++ RX[n-2]: low byte first on the wire (R74, R94, R142). -/
def State.receivedCrc (s : State) (n : Nat) : Word := catBytes (s.rxAt (n - 1)) (s.rxAt (n - 2))

/-- The CRC of all bytes before the trailing two, crc16(RX[0..n-2)) (R94, R142). -/
def State.computedCrc (s : State) (n : Nat) : Word := crc16 (s.rxBytes (n - 2))

end Sys2Proof.Machine
end

