-- ==== Sys2Proof/Machine/Encoder.lean ====
section
/-! DEFINITION. The request encoder (spec/41_encoder.md). -/

namespace Sys2Proof.Machine

/-- BUILD (R115 to R118): BUSY, then CFG_ERR for the unit ID, then CFG_ERR for the function code; else the request goes
to TX and its CRC to CRC. CTRL and TX_POS play no part. -/
def execBuild (s : State) : Host.Outcome State Fault Refusal :=
  if s.busy then .next (s.raiseError .busy)
  else if !unitInRange s.unitId then .next (s.raiseError .cfgErr)
  else if s.func ≠ Config.readFunction then .next (s.raiseError .cfgErr)
  else
    let c := crc16 s.requestHead
    .next { s with tx := s.requestFrame c, txLen := 8, crc := c }.setDone

end Sys2Proof.Machine
end

