-- ==== Sys2Proof/Machine/Framer.lean ====
section
/-! DEFINITION. The serial framer (spec/42_framer.md): SEND and RECV, and the line and tick events TxTake, RxByte and Tick. -/

namespace Sys2Proof.Machine

/-! ## Commands -/

/-- SEND (R120): BUSY, then PORT_UNAVAIL, then NO_FRAME (R167); else the transfer starts at TX[0]. -/
def execSend (s : State) : Host.Outcome State Fault Refusal :=
  if s.busy then .next (s.raiseError .busy)
  else if !s.ctrl.en then .next (s.raiseError .portUnavail)
  else if s.txLen = 0 then .next (s.raiseError .noFrame)
  else .next { s with txPos := 0, txElapsed := 0x0000#16, status.txact := true }

/-- RECV (R126): BUSY, then PORT_UNAVAIL; else the receiver is armed. -/
def execRecv (s : State) : Host.Outcome State Fault Refusal :=
  if s.busy then .next (s.raiseError .busy)
  else if !s.ctrl.en then .next (s.raiseError .portUnavail)
  else .next s.armRx

/-! ## Line events -/

/-- The flags of `tx_complete()`: TXACT falls, TXDONE and DONE are set (R123). -/
def State.endSend (s : State) : State :=
  { s with status := { s.status with txact := false, txdone := true, done := true } }

/-- `tx_complete()` (R123, R124): with AUTORX the same step arms the receiver. -/
def State.txComplete (s : State) : State :=
  let s₁ := s.endSend
  if s₁.ctrl.autorx then s₁.armRx else s₁

/-- `emit_line(TX[TX_POS])`, and TX_POS counts the byte (R121). -/
def State.emitByte (s : State) (h : s.txPos.val < 8) : State :=
  { s with wire := s.wire ++ [s.tx[s.txPos.val]], txPos := ⟨s.txPos.val + 1, Nat.succ_lt_succ h⟩ }

/-- TxTake (R121): the line takes TX[TX_POS]; the last byte completes the transmission. It has no effect while TXACT = 0. -/
def txTake (s : State) : Host.Outcome State Fault Refusal :=
  if s.status.txact then
    if h : s.txPos.val < 8 then
      let s₁ := s.emitByte h
      .next (if s₁.txPos = s₁.txLen then s₁.txComplete else s₁)
    else .fault .txIndex
  else .next s

/-- `RX[RX_LEN] <- b`, RX_LEN counts the byte, and RX_SILENCE starts anew (R132). -/
def State.storeByte (b : Byte) (s : State) (h : s.rxLen.val < 256) : State :=
  { s.setRx s.rxLen.val b with rxLen := ⟨s.rxLen.val + 1, Nat.succ_lt_succ h⟩, rxSilence := 0x0000#16 }

/-- RxByte(b) (R132 to R134): stored at RX[RX_LEN] while RXACT = 1, and byte number MAX_RX ends the window with FULL;
discarded with DROP while RXACT = 0. -/
def rxByte (b : Byte) (s : State) : Host.Outcome State Fault Refusal :=
  if s.status.rxact then
    if h : s.rxLen.val < 256 then
      let s₁ := s.storeByte b h
      .next (if s₁.rxLen = s₁.maxRx then s₁.endRx .full else s₁)
    else .fault .rxIndex
  else .next { s with status.drop := true }

/-! ## Ticks -/

/-- `tx_timeout()` (R138): the transfer stops, the error is recorded, and DONE is set; TXDONE is not, and the receiver is
not armed. -/
def State.endTxTimeout (s : State) : State :=
  ({ s with status.txact := false }.raiseError .txTimeout).setDone

/-- The counter of a tick while TXACT = 1 (R38, R128). -/
def State.countTx (s : State) : State := { s with txElapsed := satInc s.txElapsed }

/-- Tick while TXACT = 1: TX_ELAPSED counts, then the write timeout (R128). -/
def State.tickTx (s : State) : State :=
  let s₁ := s.countTx
  if s₁.txTimeout ≤ s₁.txElapsed then s₁.endTxTimeout else s₁

/-- The counters of a tick while RXACT = 1: RX_SILENCE counts only after the first byte (R43, R44, R128, R129). -/
def State.countRx (s : State) : State :=
  { s with
    rxElapsed := satInc s.rxElapsed
    rxSilence := if 0 < s.rxLen.val then satInc s.rxSilence else s.rxSilence }

/-- Tick while RXACT = 1: the counters, then the end by silence, then the end by window expiry (R128 to R131). -/
def State.tickRx (s : State) : State :=
  let s₁ := s.countRx
  if s₁.gapTicks ≠ 0x0000#16 ∧ 0 < s₁.rxLen.val ∧ s₁.gapTicks ≤ s₁.rxSilence then s₁.endRx .gap
  else if s₁.rxTimeout ≤ s₁.rxElapsed then
    if s₁.rxLen.val = 0 then s₁.endRx .timeout else s₁.endRx .window
  else s₁

/-- Tick (R128): it has no effect in IDLE. -/
def tick (s : State) : State :=
  if s.status.txact then s.tickTx
  else if s.status.rxact then s.tickRx
  else s

end Sys2Proof.Machine
end

