-- ==== Sys2Proof/Machine/Validator.lean ====
section
/-! DEFINITION. The response decoder and CRC validator (spec/43_decoder.md) and the Modbus-TCP header validator
(spec/44_tcp.md). -/

namespace Sys2Proof.Machine

/-- The outcome of an RTU frame of n ≥ 4 bytes: the first check that fails, in the order unit, function code, CRC (R144). -/
def State.rtuVerdict (s : State) (n : Nat) : Verdict :=
  if s.rxAt 0 ≠ s.expUnit then .unitMismatch
  else if s.rxAt 1 ≠ Config.readFunction then .fcMismatch
  else if s.computedCrc n ≠ s.receivedCrc n then .crcFail
  else .ok

/-- The outcome of a Modbus-TCP ADU of n ≥ 8 bytes: the first check that fails, in the order protocol, length, unit,
function code (R150). -/
def State.tcpVerdict (s : State) (n : Nat) : Verdict :=
  if s.rxWord 2 ≠ 0x0000#16 then .mbapProto
  else if s.rxWord 4 ≠ BitVec.ofNat 16 (n - 6) then .mbapLen
  else if s.rxAt 6 ≠ s.expUnit then .unitMismatch
  else if s.rxAt 7 ≠ Config.readFunction then .fcMismatch
  else .ok

/-- `result(code)` with the payload fields: for OK the payload starts at `off` and has `len` bytes, and for
every other outcome both fields are 0 (R50, R51, R142, R149). -/
def State.setResult (v : Verdict) (off : BitVec 9) (len : Nat) (s : State) : State :=
  { s with
    result := v
    payOff := if v = .ok then off else 0#9
    payLen := if v = .ok then BitVec.ofNat 9 len else 0#9 }

/-- VALIDATE_RTU (R142 to R147): the payload is not interpreted (R145), and a negative result is no error (R147). -/
def execValidateRtu (s : State) : Host.Outcome State Fault Refusal :=
  if s.busy then .next (s.raiseError .busy)
  else
    let n := s.rxLen.val
    let s₁ := { s with mbTid := 0x0000#16, mbPid := 0x0000#16, mbLen := 0x0000#16 }
    if n < 4 then
      .next ({ s₁ with respUnit := 0x00#8, respFc := 0x00#8, rxCrc := 0x0000#16 }.setResult .short 0#9 0).setDone
    else
      .next ({ s₁ with
        respUnit := s.rxAt 0
        respFc := s.rxAt 1
        rxCrc := s.receivedCrc n
        crc := s.computedCrc n }.setResult (s.rtuVerdict n) 2#9 (n - 4)).setDone

/-- VALIDATE_TCP (R148 to R153): the transaction identifier is parsed and not compared (R153), and no CRC is computed (R151). -/
def execValidateTcp (s : State) : Host.Outcome State Fault Refusal :=
  if s.busy then .next (s.raiseError .busy)
  else
    let n := s.rxLen.val
    let s₁ := { s with rxCrc := 0x0000#16 }
    if n < 8 then
      .next ({ s₁ with
        mbTid := 0x0000#16
        mbPid := 0x0000#16
        mbLen := 0x0000#16
        respUnit := 0x00#8
        respFc := 0x00#8 }.setResult .short 0#9 0).setDone
    else
      .next ({ s₁ with
        mbTid := s.rxWord 0
        mbPid := s.rxWord 2
        mbLen := s.rxWord 4
        respUnit := s.rxAt 6
        respFc := s.rxAt 7 }.setResult (s.tcpVerdict n) 8#9 (n - 8)).setDone

end Sys2Proof.Machine
end

