-- ==== Sys2Proof/Machine/Dispatch.lean ====
section
/-! DEFINITION. `issue(v)` and the acting register writes (spec/45_control.md R154): one arm per instruction. -/

namespace Sys2Proof.Machine

def exec (i : Instr) (s : State) : Host.Outcome State Fault Refusal :=
  match i with
  | .nop => Sys2Proof.Machine.execNop s
  | .crcInit => Sys2Proof.Machine.execCrcInit s
  | .build => Sys2Proof.Machine.execBuild s
  | .send => Sys2Proof.Machine.execSend s
  | .recv => Sys2Proof.Machine.execRecv s
  | .validateRtu => Sys2Proof.Machine.execValidateRtu s
  | .validateTcp => Sys2Proof.Machine.execValidateTcp s
  | .abort => Sys2Proof.Machine.execAbort s
  | .crcUpdate d => Sys2Proof.Machine.execCrcUpdate d s
  | .crcWrite v => Sys2Proof.Machine.execCrcWrite v s
  | .softReset => Sys2Proof.Machine.execSoftReset s
  | .ctrlWrite en autorx baud => Sys2Proof.Machine.execCtrlWrite en autorx baud s
  | .illegalCmd v => Sys2Proof.Machine.execIllegalCmd v s

end Sys2Proof.Machine
end

