-- ==== Sys2Proof/Machine/Events.lean ====
section
/-! DEFINITION. One event of the host, the line, the tick source or the `rst_n` pin, as one atomic step of the whole block
(spec/10_state.md R18, R19; spec/20_memory.md R68, R69, R72, R79, R80; spec/70_reset_and_hazards.md R183). -/

namespace Sys2Proof.Machine

/-- `MemWrite(idx, 2, v)` (R69): an instruction runs, and every other write is a plain register write. -/
def hostWrite (w : BusWrite) (s : State) : Host.Outcome State Fault Refusal :=
  match decode w with
  | .instr i => exec i s
  | .plain p => .next (s.writePlain p)

/-- `MemRead(idx, 2)` (R68): the value appears on `bus_rdata`; the block's own state does not change. -/
def hostRead (idx : SlotIdx) (s : State) : State := { s with busRdata := s.readSlot (slotOf idx) }

/-- `rst_n` takes a level (R183): falling, the block enters the state of R181; rising, it takes events from then on. A
level it already has changes nothing. -/
def resetPin (level : Bool) (s : State) : State :=
  if level then { s with rstHigh := true }
  else if s.rstHigh then s.hardReset
  else s

/-- An event while `rst_n` is high. -/
def runEvent (e : Event) (s : State) : Host.Outcome State Fault Refusal :=
  match e with
  | .memWrite w => hostWrite w s
  | .memRead idx => .next (hostRead idx s)
  | .txTake => txTake s
  | .rxByte b => rxByte b s
  | .tick => .next (tick s)
  | .rstN level => .next (resetPin level s)

/-- An event while `rst_n` is low: bus reads return 0, and writes, line events and ticks are ignored (R183, U10). -/
def heldEvent (e : Event) (s : State) : State :=
  match e with
  | .memWrite _ => s
  | .memRead _ => { s with busRdata := 0x0000#16 }
  | .txTake => s
  | .rxByte _ => s
  | .tick => s
  | .rstN level => resetPin level s

/-- The effect of one event. -/
def takeEvent (e : Event) (s : State) : Host.Outcome State Fault Refusal :=
  if s.rstHigh then runEvent e s else .next (heldEvent e s)

/-- The next event in the order in which the agents take them. The block has no step of its own: with no event to come,
nothing changes (R18, notes/assumptions/1). -/
def advance (s : State) : Host.Outcome State Fault Refusal :=
  match s.pending with
  | [] => .next s
  | e :: rest => takeEvent e (s.setPending rest)

end Sys2Proof.Machine
end

