-- ==== Sys2Proof/Machine/Step.lean ====
section
/-! DEFINITION. The step: the block takes the next event. -/

namespace Sys2Proof.Machine

/-- One step: the next pending event, as one atomic step of the whole block (R13, R79). -/
def step (s : State) : Host.Outcome State Fault Refusal := advance s

/-- s with the bus write of a table word as the next event, and `rst_n` high so that the block takes it
(notes/assumptions/4). The events that were to come follow it. -/
def State.withFetchWord (s : State) (nbits w : Nat) : State :=
  { s with pending := .memWrite (tableWrite nbits w) :: s.pending, rstHigh := true }

end Sys2Proof.Machine
end

