-- ==== Sys2Proof/Machine/Assembler.lean ====
section
/-! DEFINITION. The host notation and its pseudo-instructions (spec/00_scope.md R14; spec/30_encoding.md R100, R101), as
lists of events. Where the statements of several agents are interleaved, the list is one order of the events (R80). -/

namespace Sys2Proof.Machine

/-- The slot of a register, the `idx` column of R22. -/
def Reg.slot : Reg → SlotIdx
  | .ctrl => 0x000#9
  | .status => 0x001#9
  | .irqEn => 0x002#9
  | .cmd => 0x003#9
  | .errCode => 0x004#9
  | .unitId => 0x005#9
  | .func => 0x006#9
  | .startAddr => 0x007#9
  | .quantity => 0x008#9
  | .expUnit => 0x009#9
  | .crc => 0x00A#9
  | .crcData => 0x00B#9
  | .txLen => 0x00C#9
  | .txPos => 0x00D#9
  | .txTimeout => 0x00E#9
  | .txElapsed => 0x00F#9
  | .rxLen => 0x010#9
  | .maxRx => 0x011#9
  | .rxTimeout => 0x012#9
  | .gapTicks => 0x013#9
  | .rxElapsed => 0x014#9
  | .rxSilence => 0x015#9
  | .rxEnd => 0x016#9
  | .result => 0x017#9
  | .respUnit => 0x018#9
  | .respFc => 0x019#9
  | .rxCrc => 0x01A#9
  | .payOff => 0x01B#9
  | .payLen => 0x01C#9
  | .mbTid => 0x01D#9
  | .mbPid => 0x01E#9
  | .mbLen => 0x01F#9
  | .tcpPort => 0x020#9

/-- The slot of RXBUF[i], 0x100 + i (R57). -/
def rxbufSlot (i : Nat) : SlotIdx := BitVec.ofNat 9 (0x100 + i)

/-- The slot of TXBUF[i], 0x040 + i (R56). -/
def txbufSlot (i : Nat) : SlotIdx := BitVec.ofNat 9 (0x040 + i)

/-- `wr NAME, v` (R100). -/
def wr (r : Reg) (v : Word) : Event := .memWrite ⟨r.slot, v⟩

/-- `wr RXBUF[i], b` (R100). -/
def wrRxbuf (i : Nat) (b : Byte) : Event := .memWrite ⟨rxbufSlot i, b.setWidth 16⟩

/-- `rd NAME` (R100). -/
def rd (r : Reg) : Event := .memRead r.slot

/-- `rd RXBUF[i]` (R100). -/
def rdRxbuf (i : Nat) : Event := .memRead (rxbufSlot i)

/-- `cmd OP`, and every other instruction's bus write (R100). -/
def cmd (i : Instr) : Event := .memWrite (encode i)

/-- `wait A|B...`: a polling loop of `rd STATUS` (R100). Its length is the host's to find out, so a run that polls k times
holds k reads. -/
def waitPolls (k : Nat) : List Event := List.replicate k (rd .status)

/-- The loop of `wait` exits after a read in which any bit of the mask was 1 (R14, R100). -/
def waitDone (mask : Word) (s : State) : Bool := s.busRdata &&& mask != 0#16

/-- `rx b0, ..., bk` of a `line` statement (R100). -/
def lineRx (bs : List Byte) : List Event := bs.map .rxByte

/-- `take` k times of a `line` statement (R100). -/
def lineTake (k : Nat) : List Event := List.replicate k .txTake

/-- `tick k` of a `line` statement (R100). -/
def lineTick (k : Nat) : List Event := List.replicate k .tick

/-- `clrst` (R101). -/
def clrst : List Event := [wr .status 0x01F8#16]

/-- `crcbytes b0, ..., bk` (R101). -/
def crcbytes (bs : List Byte) : List Event := cmd .crcInit :: bs.map (fun b => wr .crcData (b.setWidth 16))

/-- The RXBUF writes of `loadrx`, from index i up (R101). -/
def loadrxFrom : Nat → List Byte → List Event
  | _, [] => []
  | i, b :: bs => wrRxbuf i b :: loadrxFrom (i + 1) bs

/-- `loadrx b0, ..., bk` (R101). -/
def loadrx (bs : List Byte) : List Event := loadrxFrom 0 bs ++ [wr .rxLen (BitVec.ofNat 16 bs.length)]

/-- `request u, a, q` (R101). -/
def request (u a q : Word) : List Event := [wr .unitId u, wr .startAddr a, wr .quantity q, cmd .build]

/-- `transact` (R101), with the line's events between SEND and the exit of the wait, and the number of polls. -/
def transact (line : List Event) (polls : Nat) : List Event :=
  clrst ++ [cmd .build, cmd .send] ++ line ++ waitPolls polls ++ [cmd .validateRtu, rd .result]

end Sys2Proof.Machine
end

