-- ==== Sys2Proof/Safety.lean ====
section
/-! DEFINITION. What the statements speak of: the invariants of spec/10_state.md R63, the invariant that every step keeps,
and the run of a list of events. -/

namespace Sys2Proof.Machine

/-- The invariants of R63, word for word. -/
structure SpecInvariants (s : State) : Prop where
  oneDirection : ¬ (s.status.txact = true ∧ s.status.rxact = true)
  busyBit : s.statusWord.getLsbD 0 = (s.status.txact || s.status.rxact)
  windowOpen : s.status.rxact = true → s.rxLen.val ≤ s.maxRx.val
  rxLenMax : s.rxLen.val ≤ 256
  maxRxRange : 1 ≤ s.maxRx.val ∧ s.maxRx.val ≤ 256
  txPosMax : s.txPos.val ≤ s.txLen.val
  txLenValues : s.txLen.val = 0 ∨ s.txLen.val = 8
  noStaleCode : s.status.err = false → s.errCode = .none

/-- The invariant that every step keeps. It implies R63 and adds what an induction needs and what the rules promise
elsewhere: the buffer indexes of R121 and R132, the enable of R23, the reserved bits of R25, the canonical form of RX, the
cleared outputs of R125, the silence count of R129, and the reset state that `rst_n` low holds (R183). -/
structure Inv (s : State) : Prop where
  oneDirection : ¬ (s.status.txact = true ∧ s.status.rxact = true)
  windowOpen : s.status.rxact = true → s.rxLen.val < s.maxRx.val
  maxRxPos : 1 ≤ s.maxRx.val
  txPosMax : s.txPos.val ≤ s.txLen.val
  sending : s.status.txact = true → s.txPos.val < s.txLen.val
  txLenValues : s.txLen.val = 0 ∨ s.txLen.val = 8
  noStaleCode : s.status.err = false → s.errCode = .none
  irqEnBits : s.irqEn &&& 0x01F8#16 = s.irqEn
  busyEnabled : s.busy = true → s.ctrl.en = true
  rxWf : Memory.wf s.rx = true
  windowFresh : s.status.rxact = true → s.rxEnd = .none ∧ s.result = .none
  silenceZero : s.status.rxact = true → s.rxLen.val = 0 → s.rxSilence = 0x0000#16
  heldReset : s.rstHigh = false →
    s = { State.reset with rxDraw := s.rxDraw, pending := s.pending, wire := s.wire, rstHigh := false }

/-- The machine after the events of a list, taken in order, with nothing to come after them (R79). -/
def afterEvents (es : List Event) (s : State) : Host.Outcome State Fault Refusal :=
  Host.Core.run Sys2Proof.core es.length (s.setPending es)

/-- `crc_step(c, b)` as R106 writes it, for the statements: eight passes that test the low bit before the shift. -/
def specCrcStep (c : Word) (b : Byte) : Word :=
  (List.range 8).foldl
    (fun c _ => if c.getLsbD 0 = true then (c >>> 1) ^^^ 0xA001#16 else c >>> 1) (c ^^^ b.setWidth 16)

/-- The event is one of the line's, of the tick source's, or a host read: none of them can start a transfer or write a
limit (R18). -/
def Event.passive : Event → Bool
  | .memWrite _ => false
  | .memRead _ => true
  | .txTake => true
  | .rxByte _ => true
  | .tick => true
  | .rstN _ => false

/-- The outcome with CTRL.BAUD forgotten, to compare two machines that may differ in it (R137). -/
def forgetBaud : Host.Outcome State Fault Refusal → Host.Outcome State Fault Refusal
  | .next s => .next { s with ctrl.baud := .b9600 }
  | .fault r => .fault r
  | .refused r => .refused r

/-- The outcome with the receive buffer forgotten, to compare two machines that may differ in it (R187). -/
def forgetRx : Host.Outcome State Fault Refusal → Host.Outcome State Fault Refusal
  | .next s => .next { s with rx := [], rxDraw := 0 }
  | .fault r => .fault r
  | .refused r => .refused r

/-- How many ticks a list of events holds. -/
def tickCount (es : List Event) : Nat := es.countP (· == .tick)

/-- How many TxTake events a list holds. -/
def takeCount (es : List Event) : Nat := es.countP (· == .txTake)

/-- BUSY = 0 with neither transfer open: the state in which BUILD, SEND, RECV and the validations are accepted (R58, R155). -/
def idle (s : State) : Prop := s.status.txact = false ∧ s.status.rxact = false

end Sys2Proof.Machine
end

