-- ==== Sys2Proof/Certificates/Slice0/Obligations.lean ====
section
/-! DEFINITION. The statements about the machine, made from the numbered rules of spec/. Each names its rules. -/

open Sys2Proof Sys2Proof.Machine

/-! ## Encoding -/

/-- Decoding the encoding of a well-formed instruction gives the instruction (R87 to R90, R109). -/
def Obligations.DecodeEncodeRoundTrip : Prop :=
  ∀ i : Instr, wellFormed i = true → decode (encode i) = .instr i

/-- Every CMD value is one of the eight commands or ILLEGAL_CMD, every CRC_DATA value is CRC_UPDATE, and every CTRL value is
SOFT_RESET or a configuration write (R102, with the values of R87, R89 and R90). -/
def Obligations.EveryActingWriteDecodesToOneOperation : Prop :=
  (∀ v : Word, decode ⟨0x003#9, v⟩ = .instr (
    if v = 0x0000#16 then .nop
    else if v = 0x0001#16 then .crcInit
    else if v = 0x0002#16 then .build
    else if v = 0x0003#16 then .send
    else if v = 0x0004#16 then .recv
    else if v = 0x0005#16 then .validateRtu
    else if v = 0x0006#16 then .validateTcp
    else if v = 0x0007#16 then .abort
    else .illegalCmd v)) ∧
  (∀ v : Word, decode ⟨0x00B#9, v⟩ = .instr (.crcUpdate (v.extractLsb' 0 8))) ∧
  (∀ v : Word, v.getLsbD 15 = true → decode ⟨0x000#9, v⟩ = .instr .softReset) ∧
  (∀ v : Word, v.getLsbD 15 = false →
    decode ⟨0x000#9, v⟩ = .instr (.ctrlWrite (v.getLsbD 0) (v.getLsbD 1) (v.extractLsb' 2 3)))

/-- Every value that a row of the opcode table matches, written to the row's slot, decodes to a well-formed instruction with
the row's mnemonic (R87 to R90, R109). -/
def Obligations.TableRowsDecodeToTheirMnemonic : Prop :=
  ∀ r ∈ opcodeTable, ∀ v : Word, v &&& r.mask = r.pattern →
    ∃ i, decode ⟨r.slot, v⟩ = .instr i ∧ mnemonic i = r.mnemonic ∧ wellFormed i = true

/-- With a bus write as the next event and `rst_n` high, the step is exec of the instruction that the write decodes to, in
the state in which that event is taken; and `withFetchWord` places a table word so (R69, R79; that events stand in a list, and
which slot a table word is written to, are the model's conventions, notes/assumptions/1 and 4). -/
def Obligations.StepRunsTheDecodedInstruction : Prop :=
  (∀ (s : State) (w : BusWrite) (rest : List Event) (i : Instr),
    s.rstHigh = true → s.pending = .memWrite w :: rest → decode w = .instr i →
      step s = exec i (s.setPending rest)) ∧
  (∀ (s : State) (nbits w : Nat) (i : Instr), decodeTableWord nbits w = some i →
      step (s.withFetchWord nbits w) = exec i { s with rstHigh := true })

/-- Words written out from the encoding tables decode to the instructions they stand for (R87, R89, R90, R109). -/
def Obligations.SpecWordsDecode : Prop :=
  decode ⟨0b000000011#9, 0b0000000000000000#16⟩ = .instr .nop ∧
  decode ⟨0b000000011#9, 0b0000000000000001#16⟩ = .instr .crcInit ∧
  decode ⟨0b000000011#9, 0b0000000000000010#16⟩ = .instr .build ∧
  decode ⟨0b000000011#9, 0b0000000000000011#16⟩ = .instr .send ∧
  decode ⟨0b000000011#9, 0b0000000000000101#16⟩ = .instr .validateRtu ∧
  decode ⟨0b000000011#9, 0b0000000000000110#16⟩ = .instr .validateTcp ∧
  decode ⟨0b000000011#9, 0b0000000100000010#16⟩ = .instr (.illegalCmd 0x0102#16) ∧
  decode ⟨0b000001011#9, 0b0000000110100101#16⟩ = .instr (.crcUpdate 0xA5#8) ∧
  decode ⟨0b000001010#9, 0b1000000001111110#16⟩ = .instr (.crcWrite 0x807E#16) ∧
  decode ⟨0b000000000#9, 0b1000000000011111#16⟩ = .instr .softReset ∧
  decode ⟨0b000000000#9, 0b0111111111110001#16⟩ = .instr (.ctrlWrite true false 0b100#3)

/-! ## The machine as a whole -/

/-- The invariant holds right after reset (R181). -/
def Obligations.ResetMeetsTheInvariant : Prop := Inv State.reset

/-- Every step keeps the invariant. What the clause heldReset says of RX (drawn anew), of `bus_rdata` (0) and of the level while
`rst_n` is low is the model's choice beside R183, notes/assumptions/2, 3 and 10. -/
def Obligations.StepKeepsTheInvariant : Prop :=
  ∀ s t : State, Inv s → step s = .next t → Inv t

/-- From reset, every order of any events of the host, the line, the tick source and the reset pin runs to its end without
a stop, and the state it leaves has the invariants of R63. -/
def Obligations.EveryInterleavingKeepsTheSpecInvariants : Prop :=
  ∀ es : List Event, ∃ t, afterEvents es State.reset = .next t ∧ SpecInvariants t

/-- Every instruction completes in every state, whatever its operands, and leaves RX, the bytes on the wire, the events to
come and the host's read port as they are (R155, R157; that the wire, `bus_rdata` and the events to come are kept, after a soft
reset too, is the model's choice, notes/assumptions/1 and 3). -/
def Obligations.EveryInstructionCompletesAndLeavesRx : Prop :=
  ∀ (i : Instr) (s : State), ∃ t, exec i s = .next t ∧ (∀ a, t.rxAt a = s.rxAt a) ∧ t.rx = s.rx ∧ t.rxDraw = s.rxDraw ∧
    t.wire = s.wire ∧ t.pending = s.pending ∧ t.busRdata = s.busRdata ∧ t.rstHigh = s.rstHigh

/-- The machine stops only where a line event would touch a buffer byte that does not exist, and it never refuses
(R11, notes/assumptions/6: the stop is the model's choice). -/
def Obligations.StopsOnlyOutsideTheBuffers : Prop :=
  ∀ s : State,
    (∀ r, step s = .fault r →
      s.rstHigh = true ∧
      ((r = .txIndex ∧ s.status.txact = true ∧ s.txPos.val = 8 ∧ ∃ rest, s.pending = .txTake :: rest) ∨
       (r = .rxIndex ∧ s.status.rxact = true ∧ s.rxLen.val = 256 ∧ ∃ b rest, s.pending = .rxByte b :: rest))) ∧
    (∀ r, step s ≠ .refused r)

/-- The sequencer changes state only along the transitions of R58, and only at the events that R58 names. -/
def Obligations.SequencerTransitionsAreThoseOfTheSpec : Prop :=
  ∀ s t : State, Inv s → step s = .next t → t.fsm ≠ s.fsm → ∃ e rest, s.pending = e :: rest ∧
    ((s.fsm = .idle ∧ t.fsm = .tx ∧ e = .memWrite ⟨0x003#9, 0x0003#16⟩) ∨
     (s.fsm = .idle ∧ t.fsm = .rx ∧ e = .memWrite ⟨0x003#9, 0x0004#16⟩) ∨
     (s.fsm = .tx ∧ t.fsm = .rx ∧ e = .txTake ∧ s.txPos.val + 1 = s.txLen.val ∧ s.ctrl.autorx = true) ∨
     (s.fsm = .tx ∧ t.fsm = .idle ∧
       ((e = .txTake ∧ s.txPos.val + 1 = s.txLen.val ∧ s.ctrl.autorx = false) ∨
        (e = .tick ∧ s.txTimeout.toNat ≤ s.txElapsed.toNat + 1) ∨
        e = .memWrite ⟨0x003#9, 0x0007#16⟩ ∨
        (∃ v : Word, e = .memWrite ⟨0x000#9, v⟩ ∧ (v.getLsbD 15 = true ∨ v.getLsbD 0 = false)) ∨
        e = .rstN false)) ∨
     (s.fsm = .rx ∧ t.fsm = .idle ∧
       ((∃ b, e = .rxByte b ∧ s.rxLen.val + 1 = s.maxRx.val) ∨
        e = .tick ∨
        e = .memWrite ⟨0x003#9, 0x0007#16⟩ ∨
        (∃ v : Word, e = .memWrite ⟨0x000#9, v⟩ ∧ (v.getLsbD 15 = true ∨ v.getLsbD 0 = false)) ∨
        e = .rstN false)))

/-- A sticky flag, STATUS bit 3 to 8, falls only at a host write of STATUS with that bit 1, at a soft reset or at a
hardware reset (R24, R169, R172). -/
def Obligations.StickyFlagsFallOnlyByWriteOrReset : Prop :=
  ∀ (s t : State) (k : Nat), 3 ≤ k → k ≤ 8 → step s = .next t →
    s.statusWord.getLsbD k = true → t.statusWord.getLsbD k = false →
      (∃ v rest, s.pending = .memWrite ⟨0x001#9, v⟩ :: rest ∧ v.getLsbD k = true) ∨
      (∃ v rest, s.pending = .memWrite ⟨0x000#9, v⟩ :: rest ∧ v.getLsbD 15 = true) ∨
      (∃ rest, s.pending = .rstN false :: rest)

/-- While a transmission goes on, the bytes of TX and their number do not change (R83). -/
def Obligations.TransmittedBytesAreFixed : Prop :=
  ∀ s t : State, step s = .next t → s.status.txact = true → t.status.txact = true →
    t.tx = s.tx ∧ t.txLen = s.txLen

/-- While a receive window stays open, nothing changes MAX_RX, and nothing but a received byte changes RX and RX_LEN (R61). -/
def Obligations.ReceiverAloneWritesRxInAWindow : Prop :=
  ∀ s t : State, Inv s → step s = .next t → s.status.rxact = true → t.status.rxact = true →
    t.maxRx = s.maxRx ∧
    ((∀ b rest, s.pending ≠ .rxByte b :: rest) → t.rx = s.rx ∧ t.rxDraw = s.rxDraw ∧ t.rxLen = s.rxLen)

/-- CTRL.BAUD changes no rule: two machines that differ in it alone take every event alike, but for a read of CTRL itself
(R23, R137). -/
def Obligations.BaudAffectsNoRule : Prop :=
  ∀ (s : State) (b : Baud) (e : Event), e ≠ .memRead 0x000#9 →
    forgetBaud (takeEvent e { s with ctrl.baud := b }) = forgetBaud (takeEvent e s)

/-- After power-on RX holds the free draw and RX_LEN is 0, so both validators answer SHORT and a host read of RXBUF[i] returns
the draw; and no rule reads RX[i] for i ≥ RX_LEN: two machines that agree in all but RX, and in RX below RX_LEN, take every event
alike, but for a host read of RXBUF (R187). So no effect rests on the free draw of the bytes of RX beyond the frame. That the draw is
Config.rxPowerOn of the power-on's number is the model's choice, notes/assumptions/2; the number itself plays no part. -/
def Obligations.BytesBeyondTheFrameAffectNoRule : Prop :=
  (∀ (s : State) (m : Memory) (d : Nat) (e : Event),
    (∀ a, a < s.rxLen.val → ({ s with rx := m, rxDraw := d } : State).rxAt a = s.rxAt a) →
    (∀ idx : SlotIdx, e = .memRead idx → idx.toNat < 0x100) →
      forgetRx (takeEvent e { s with rx := m, rxDraw := d }) = forgetRx (takeEvent e s)) ∧
  State.reset.rxLen.val = 0 ∧
  (∃ t, exec .validateRtu State.reset = .next t ∧ t.result = .short) ∧
  (∃ t, exec .validateTcp State.reset = .next t ∧ t.result = .short) ∧
  (∀ i : Fin 256, ∃ t, afterEvents [rdRxbuf i.val] State.reset = .next t ∧
    t.busRdata = (Config.rxPowerOn State.reset.rxDraw i.val).setWidth 16)

/-! ## The CRC engine -/

/-- CRC_INIT sets CRC to 0xFFFF and DONE, in every state, and changes nothing else (R107). -/
def Obligations.CrcInitSetsTheInitialValue : Prop :=
  decode ⟨0x003#9, 0x0001#16⟩ = .instr .crcInit ∧
  ∀ s : State, exec .crcInit s = .next { s with crc := 0xFFFF#16, status := { s.status with done := true } }

/-- CRC_UPDATE advances CRC by the low byte of the value written, in every state, and changes nothing else; k of them from
0xFFFF on give crc16 of the k bytes; and the values that R108 names (R108). -/
def Obligations.CrcUpdateAdvancesByOneByte : Prop :=
  (∀ (v : Word) (s : State), ∃ d : Byte, decode ⟨0x00B#9, v⟩ = .instr (.crcUpdate d) ∧ d.toNat = v.toNat % 256 ∧
    exec (.crcUpdate d) s = .next { s with crc := specCrcStep s.crc d }) ∧
  (∀ bs : List Byte, bs.foldl specCrcStep 0xFFFF#16 = crc16 bs) ∧
  specCrcStep 0xFFFF#16 0xFF#8 = 0x00FF#16 ∧ specCrcStep 0x0000#16 0x00#8 = 0x0000#16 ∧
  specCrcStep 0xFFFF#16 0x01#8 = 0x807E#16

/-- The CRC write stores the value, in every state, and changes nothing else; and the CRC goes on from it, as in the example
of R109 (R109). -/
def Obligations.CrcWriteStoresTheValue : Prop :=
  (∀ (v : Word) (s : State), decode ⟨0x00A#9, v⟩ = .instr (.crcWrite v) ∧ exec (.crcWrite v) s = .next { s with crc := v }) ∧
  specCrcStep 0x807E#16 0x03#8 = 0x2140#16 ∧ crc16 [0x01#8, 0x03#8] = 0x2140#16

/-- The CRC of a joined sequence goes on from the CRC of its first part; so k CRC_DATA writes after CRC_INIT leave crc16 of
the k bytes, and a CRC write resumes a CRC (R105, R108, R109, R113). -/
def Obligations.CrcWritesAccumulateTheCrc : Prop :=
  (∀ s t : List Byte, crc16 (s ++ t) = t.foldl crcStep (crc16 s)) ∧
  (∀ (s : State) (bs : List Byte), s.rstHigh = true →
    afterEvents (crcbytes bs) s =
      .next { s with pending := [], crc := crc16 bs, status := { s.status with done := true } }) ∧
  (∀ (s : State) (as bs : List Byte), s.rstHigh = true →
    afterEvents (wr .crc (crc16 as) :: bs.map (fun b => wr .crcData (b.setWidth 16))) s =
      .next { s with pending := [], crc := crc16 (as ++ bs) })

/-- Changing exactly one bit anywhere in a sequence changes its CRC (R111). -/
def Obligations.SingleBitChangesAlterTheCrc : Prop :=
  ∀ (front back : List Byte) (b : Byte) (k : Nat), k < 8 →
    crc16 (front ++ (b ^^^ (1#8 <<< k)) :: back) ≠ crc16 (front ++ b :: back)

/-- A sequence with its own CRC behind it, low byte first, has CRC 0 (R112). -/
def Obligations.SequenceWithItsCrcHasZeroResidue : Prop :=
  ∀ s : List Byte, crc16 (s ++ [(crc16 s).extractLsb' 0 8, (crc16 s).extractLsb' 8 8]) = 0x0000#16

/-! ## The request encoder -/

/-- BUILD: CMD 0x0002. It is refused with BUSY while a transfer is open, then with CFG_ERR for a unit ID outside 1..247 or a
function code other than 3, and a refusal changes only ERR_CODE and ERR. Accepted, it puts the request with its CRC in TX,
8 in TX_LEN and the CRC in CRC, sets DONE, and changes nothing else, whatever CTRL holds (R115). -/
def Obligations.BuildEffect : Prop :=
  decode ⟨0x003#9, 0x0002#16⟩ = .instr .build ∧
  ∀ s : State,
    ((s.status.txact = true ∨ s.status.rxact = true) →
      exec .build s = .next { s with errCode := .busy, status := { s.status with err := true } }) ∧
    (idle s → (s.unitId.toNat = 0 ∨ 247 < s.unitId.toNat ∨ s.func ≠ 0x03#8) →
      exec .build s = .next { s with errCode := .cfgErr, status := { s.status with err := true } }) ∧
    (idle s → 1 ≤ s.unitId.toNat → s.unitId.toNat ≤ 247 → s.func = 0x03#8 →
      let head : List Byte := [s.unitId, 0x03#8, s.startAddr.extractLsb' 8 8, s.startAddr.extractLsb' 0 8,
        s.quantity.extractLsb' 8 8, s.quantity.extractLsb' 0 8]
      let c := crc16 head
      exec .build s = .next { s with
        tx := #v[s.unitId, 0x03#8, s.startAddr.extractLsb' 8 8, s.startAddr.extractLsb' 0 8,
          s.quantity.extractLsb' 8 8, s.quantity.extractLsb' 0 8, c.extractLsb' 0 8, c.extractLsb' 8 8]
        txLen := 8
        crc := c
        status := { s.status with done := true } })

/-- Every accepted BUILD makes the six request bytes and their CRC, and a VALIDATE_RTU of those 8 bytes with
EXP_UNIT = UNIT_ID answers OK with PAY_LEN = 4 (R119). -/
def Obligations.BuiltRequestValidates : Prop :=
  ∀ s : State, idle s → 1 ≤ s.unitId.toNat → s.unitId.toNat ≤ 247 → s.func = 0x03#8 →
    ∃ t, exec .build s = .next t ∧
      t.tx.toList.take 6 = [s.unitId, 0x03#8, s.startAddr.extractLsb' 8 8, s.startAddr.extractLsb' 0 8,
        s.quantity.extractLsb' 8 8, s.quantity.extractLsb' 0 8] ∧
      t.tx[7] ++ t.tx[6] = crc16 (t.tx.toList.take 6) ∧
      ∀ r : State, idle r → r.rxLen.val = 8 → (∀ i : Fin 8, r.rxAt i.val = t.tx[i.val]) → r.expUnit = s.unitId →
        ∃ r', exec .validateRtu r = .next r' ∧ r'.result = .ok ∧ r'.payLen = 4#9

/-! ## Acceptance -/

/-- While BUSY, the commands BUILD, SEND, RECV, VALIDATE_RTU and VALIDATE_TCP are refused with BUSY, and change only ERR_CODE
and ERR (R155, R157, R167). -/
def Obligations.TransferCommandsAreRefusedWhileBusy : Prop :=
  ∀ (s : State) (i : Instr), (i = .build ∨ i = .send ∨ i = .recv ∨ i = .validateRtu ∨ i = .validateTcp) →
    (s.status.txact = true ∨ s.status.rxact = true) →
      exec i s = .next { s with errCode := .busy, status := { s.status with err := true } }

/-! ## The serial framer -/

/-- SEND: CMD 0x0003. It is refused with BUSY, then PORT_UNAVAIL with EN = 0, then NO_FRAME with TX_LEN = 0, and a refusal
changes only ERR_CODE and ERR. Accepted, it sets TX_POS and TX_ELAPSED to 0 and TXACT to 1, and changes nothing else: TX and
TX_LEN stay, so a later SEND sends the same bytes (R120). -/
def Obligations.SendEffect : Prop :=
  decode ⟨0x003#9, 0x0003#16⟩ = .instr .send ∧
  ∀ s : State,
    ((s.status.txact = true ∨ s.status.rxact = true) →
      exec .send s = .next { s with errCode := .busy, status := { s.status with err := true } }) ∧
    (idle s → s.ctrl.en = false →
      exec .send s = .next { s with errCode := .portUnavail, status := { s.status with err := true } }) ∧
    (idle s → s.ctrl.en = true → s.txLen.val = 0 →
      exec .send s = .next { s with errCode := .noFrame, status := { s.status with err := true } }) ∧
    (idle s → s.ctrl.en = true → s.txLen.val ≠ 0 →
      exec .send s = .next { s with txPos := 0, txElapsed := 0x0000#16, status := { s.status with txact := true } })

/-- RECV: CMD 0x0004. It is refused with BUSY, then PORT_UNAVAIL with EN = 0. Accepted, it arms the receiver: RX_LEN,
RX_ELAPSED, RX_SILENCE, RX_END and RESULT become 0, RXACT becomes 1, and nothing else changes: not RX, and not the other
decoder outputs (R125, and R126). -/
def Obligations.RecvEffect : Prop :=
  decode ⟨0x003#9, 0x0004#16⟩ = .instr .recv ∧
  ∀ s : State,
    ((s.status.txact = true ∨ s.status.rxact = true) →
      exec .recv s = .next { s with errCode := .busy, status := { s.status with err := true } }) ∧
    (idle s → s.ctrl.en = false →
      exec .recv s = .next { s with errCode := .portUnavail, status := { s.status with err := true } }) ∧
    (idle s → s.ctrl.en = true →
      exec .recv s = .next { s with
        rxLen := 0, rxElapsed := 0x0000#16, rxSilence := 0x0000#16, rxEnd := .none, result := .none
        status := { s.status with rxact := true } })

/-- TxTake puts TX[TX_POS] on the wire and counts it; the last byte sets TXDONE and DONE and, with AUTORX, arms the receiver
in the same step; while TXACT = 0 it has no effect (R121, R123 to R125). -/
def Obligations.TxTakeEmitsOneByte : Prop :=
  ∀ (s : State) (rest : List Event), s.rstHigh = true → s.pending = .txTake :: rest →
    (s.status.txact = false → step s = .next { s with pending := rest }) ∧
    (s.status.txact = true → ∀ h : s.txPos.val < 8,
      ∃ t, step s = .next t ∧ t.wire = s.wire ++ [s.tx[s.txPos.val]] ∧ t.txPos.val = s.txPos.val + 1 ∧
        (s.txPos.val + 1 ≠ s.txLen.val →
          t = { s with pending := rest, wire := t.wire, txPos := t.txPos }) ∧
        (s.txPos.val + 1 = s.txLen.val → s.ctrl.autorx = false →
          t = { s with
            pending := rest, wire := t.wire, txPos := t.txPos
            status := { s.status with txact := false, txdone := true, done := true } }) ∧
        (s.txPos.val + 1 = s.txLen.val → s.ctrl.autorx = true →
          t = { s with
            pending := rest, wire := t.wire, txPos := t.txPos
            rxLen := 0, rxElapsed := 0x0000#16, rxSilence := 0x0000#16, rxEnd := .none, result := .none
            status := { s.status with txact := false, txdone := true, done := true, rxact := true } }))

/-- After an accepted SEND of a built frame, whatever other line events, reads and ticks (too few for the timeout) come
between, the line has taken the bytes of TX in index order, one for each TxTake, none twice and none skipped; and after BUILD
and SEND those are the bytes of the request in their wire order (R122). -/
def Obligations.BytesLeaveInIndexOrder : Prop :=
  ∀ (s : State) (es : List Event), Inv s → s.rstHigh = true → idle s → s.ctrl.en = true →
    (∀ e ∈ es, e.passive = true) → tickCount es < s.txTimeout.toNat →
      (s.txLen.val = 8 →
        ∃ t, afterEvents (cmd .send :: es) s = .next t ∧
          t.wire = s.wire ++ s.tx.toList.take (takeCount es) ∧ t.txPos.val = min (takeCount es) 8 ∧
          t.status.txact = decide (takeCount es < 8)) ∧
      (1 ≤ s.unitId.toNat → s.unitId.toNat ≤ 247 → s.func = 0x03#8 →
        let head : List Byte := [s.unitId, 0x03#8, s.startAddr.extractLsb' 8 8, s.startAddr.extractLsb' 0 8,
          s.quantity.extractLsb' 8 8, s.quantity.extractLsb' 0 8]
        ∃ t, afterEvents (cmd .build :: cmd .send :: es) s = .next t ∧
          t.wire = s.wire ++
            (head ++ [(crc16 head).extractLsb' 0 8, (crc16 head).extractLsb' 8 8]).take (takeCount es))

/-- RxByte in an open window stores the byte at RX[RX_LEN], counts it and restarts the silence count; byte number MAX_RX ends
the window with FULL. Outside a window it stores nothing and sets DROP alone (R132 to R134). -/
def Obligations.RxByteStoresOrDrops : Prop :=
  ∀ (s : State) (b : Byte) (rest : List Event), s.rstHigh = true → s.pending = .rxByte b :: rest →
    (s.status.rxact = false →
      step s = .next { s with pending := rest, status := { s.status with drop := true } }) ∧
    (s.status.rxact = true → s.rxLen.val < 256 →
      ∃ t, step s = .next t ∧ t.rxAt s.rxLen.val = b ∧ (∀ a, a ≠ s.rxLen.val → t.rxAt a = s.rxAt a) ∧
        t.rxLen.val = s.rxLen.val + 1 ∧ t.rxSilence = 0x0000#16 ∧
        t = { s with
          pending := rest, rx := t.rx, rxLen := t.rxLen, rxSilence := t.rxSilence, rxEnd := t.rxEnd, status := t.status } ∧
        (s.rxLen.val + 1 ≠ s.maxRx.val → t.rxEnd = s.rxEnd ∧ t.status = s.status) ∧
        (s.rxLen.val + 1 = s.maxRx.val →
          t.rxEnd = .full ∧ t.status = { s.status with rxact := false, rxdone := true, done := true }))

/-- Bytes received in an open window, up to MAX_RX of them, stand in RX byte for byte in the order of arrival, whatever their
values; every other byte of RX is as before; and the window ends, with FULL, exactly at byte number MAX_RX
(R132, R134, R136). -/
def Obligations.ReceivedBytesAreStoredUnchanged : Prop :=
  ∀ (s : State) (bs : List Byte), Inv s → s.rstHigh = true → s.status.rxact = true →
    s.rxLen.val + bs.length ≤ s.maxRx.val →
      ∃ t, afterEvents (lineRx bs) s = .next t ∧ t.rxLen.val = s.rxLen.val + bs.length ∧
        (∀ (j : Nat) (h : j < bs.length), t.rxAt (s.rxLen.val + j) = bs[j]) ∧
        (∀ a, a < s.rxLen.val ∨ s.rxLen.val + bs.length ≤ a → t.rxAt a = s.rxAt a) ∧
        t.status.rxact = decide (s.rxLen.val + bs.length < s.maxRx.val) ∧
        t.rxEnd = (if s.rxLen.val + bs.length = s.maxRx.val then .full else s.rxEnd)

/-- A tick in an open window counts RX_ELAPSED, and RX_SILENCE once a byte is stored, both staying at 0xFFFF; then the window
ends with GAP, else with TIMEOUT or WINDOW, else it stays open; and nothing else changes (R127 to R131). -/
def Obligations.TickInAWindow : Prop :=
  ∀ (s : State) (rest : List Event), s.rstHigh = true → s.pending = .tick :: rest →
    s.status.txact = false → s.status.rxact = true →
      let elapsed := min (s.rxElapsed.toNat + 1) 0xFFFF
      let silence := if s.rxLen.val = 0 then s.rxSilence.toNat else min (s.rxSilence.toNat + 1) 0xFFFF
      let gap := s.gapTicks.toNat ≠ 0 ∧ s.rxLen.val ≠ 0 ∧ s.gapTicks.toNat ≤ silence
      ∃ t, step s = .next t ∧ t.rxElapsed.toNat = elapsed ∧ t.rxSilence.toNat = silence ∧
        t = { s with
          pending := rest, rxElapsed := t.rxElapsed, rxSilence := t.rxSilence, rxEnd := t.rxEnd, status := t.status } ∧
        (gap → t.rxEnd = .gap ∧ t.status = { s.status with rxact := false, rxdone := true, done := true }) ∧
        (¬ gap → s.rxTimeout.toNat ≤ elapsed → s.rxLen.val ≠ 0 →
          t.rxEnd = .window ∧ t.status = { s.status with rxact := false, rxdone := true, done := true }) ∧
        (¬ gap → s.rxTimeout.toNat ≤ elapsed → s.rxLen.val = 0 →
          t.rxEnd = .timeout ∧ t.status = { s.status with rxact := false, rxdone := true, done := true, rxto := true }) ∧
        (¬ gap → elapsed < s.rxTimeout.toNat → t.rxEnd = s.rxEnd ∧ t.status = s.status)

/-- A tick in a transmission counts TX_ELAPSED, staying at 0xFFFF, and at TX_TIMEOUT stops the transfer with the error
TX_TIMEOUT and DONE, without TXDONE and without arming the receiver; in IDLE a tick changes nothing (R128, R138). -/
def Obligations.TickInATransmissionAndInIdle : Prop :=
  ∀ (s : State) (rest : List Event), s.rstHigh = true → s.pending = .tick :: rest →
    let elapsed := min (s.txElapsed.toNat + 1) 0xFFFF
    (s.status.txact = true → elapsed < s.txTimeout.toNat →
      step s = .next { s with pending := rest, txElapsed := BitVec.ofNat 16 elapsed }) ∧
    (s.status.txact = true → s.txTimeout.toNat ≤ elapsed →
      step s = .next { s with
        pending := rest
        txElapsed := BitVec.ofNat 16 elapsed
        errCode := .txTimeout
        status := { s.status with txact := false, err := true, done := true } }) ∧
    (idle s → step s = .next { s with pending := rest })

/-- A receive window just armed has ended, with RXDONE and DONE, once max(RX_TIMEOUT, 1) ticks have come, whatever line events
and host reads come between them (R135, R194). -/
def Obligations.ReceiveWindowEnds : Prop :=
  ∀ (s : State) (es : List Event), Inv s → s.rstHigh = true → s.status.rxact = true → s.rxElapsed = 0x0000#16 →
    (∀ e ∈ es, e.passive = true) → max s.rxTimeout.toNat 1 ≤ tickCount es →
      ∃ t, afterEvents es s = .next t ∧ t.status.rxact = false ∧ t.status.rxdone = true ∧ t.status.done = true

/-- A transmission just started has ended, with DONE, once max(TX_TIMEOUT, 1) ticks have come, whatever line events and host
reads come between them: complete with TXDONE, or stopped with the error TX_TIMEOUT (R194). -/
def Obligations.TransmissionEnds : Prop :=
  ∀ (s : State) (es : List Event), Inv s → s.rstHigh = true → s.status.txact = true → s.txElapsed = 0x0000#16 →
    (∀ e ∈ es, e.passive = true) → max s.txTimeout.toNat 1 ≤ tickCount es →
      ∃ t, afterEvents es s = .next t ∧ t.status.txact = false ∧ t.status.done = true ∧
        ((t.status.txdone = true ∧ t.txPos.val = 8) ∨ (t.status.err = true ∧ t.errCode = .txTimeout))

/-! ## The response decoder -/

/-- VALIDATE_RTU, CMD 0x0005, the whole next state: while a transfer is open it is refused with BUSY; in IDLE a frame of fewer than 4 bytes is SHORT with every field 0 and CRC unchanged;
a longer one leaves its fields, the two CRCs, the first failing check and, for OK, the payload (R142). -/
def Obligations.ValidateRtuEffect : Prop :=
  decode ⟨0x003#9, 0x0005#16⟩ = .instr .validateRtu ∧
  (∀ s : State, (s.status.txact = true ∨ s.status.rxact = true) →
    exec .validateRtu s = .next { s with errCode := .busy, status := { s.status with err := true } }) ∧
  ∀ s : State, idle s →
    let n := s.rxLen.val
    let c := crc16 ((List.range (n - 2)).map s.rxAt)
    let rc : Word := s.rxAt (n - 1) ++ s.rxAt (n - 2)
    (n < 4 →
      exec .validateRtu s = .next { s with
        mbTid := 0, mbPid := 0, mbLen := 0, payOff := 0, payLen := 0, respUnit := 0, respFc := 0, rxCrc := 0
        result := .short
        status := { s.status with done := true } }) ∧
    (4 ≤ n → ∀ v : Verdict,
      v = (if s.rxAt 0 ≠ s.expUnit then .unitMismatch
           else if s.rxAt 1 ≠ 0x03#8 then .fcMismatch
           else if c ≠ rc then .crcFail
           else .ok) →
      exec .validateRtu s = .next { s with
        mbTid := 0, mbPid := 0, mbLen := 0
        respUnit := s.rxAt 0, respFc := s.rxAt 1, rxCrc := rc, crc := c
        result := v
        payOff := if v = .ok then 2#9 else 0#9
        payLen := if v = .ok then BitVec.ofNat 9 (n - 4) else 0#9
        status := { s.status with done := true } })

/-- When several checks of VALIDATE_RTU fail, the first of SHORT, UNIT_MISMATCH, FC_MISMATCH, CRC_FAIL names the result
(R144). -/
def Obligations.RtuCheckOrder : Prop :=
  ∀ s : State, idle s → ∃ t, exec .validateRtu s = .next t ∧
    (s.rxLen.val < 4 → t.result = .short) ∧
    (4 ≤ s.rxLen.val → s.rxAt 0 ≠ s.expUnit → t.result = .unitMismatch) ∧
    (4 ≤ s.rxLen.val → s.rxAt 0 = s.expUnit → s.rxAt 1 ≠ 0x03#8 → t.result = .fcMismatch) ∧
    (4 ≤ s.rxLen.val → s.rxAt 0 = s.expUnit → s.rxAt 1 = 0x03#8 → s.computedCrc s.rxLen.val ≠ s.receivedCrc s.rxLen.val →
      t.result = .crcFail)

/-- VALIDATE_RTU answers OK exactly for a frame of at least 4 bytes with the expected unit, function code 3 and its CRC
behind it, low byte first; then the payload is the n - 4 bytes from index 2; and no outcome is an error (R142, R147). -/
def Obligations.RtuAcceptance : Prop :=
  ∀ s : State, idle s → ∃ t, exec .validateRtu s = .next t ∧
    (t.result = .ok ↔
      4 ≤ s.rxLen.val ∧ s.rxAt 0 = s.expUnit ∧ s.rxAt 1 = 0x03#8 ∧
      s.rxAt (s.rxLen.val - 2) = (crc16 (s.rxBytes (s.rxLen.val - 2))).extractLsb' 0 8 ∧
      s.rxAt (s.rxLen.val - 1) = (crc16 (s.rxBytes (s.rxLen.val - 2))).extractLsb' 8 8) ∧
    (t.result = .ok → t.payOff.toNat = 2 ∧ t.payLen.toNat = s.rxLen.val - 4) ∧
    (t.result ≠ .ok → t.payOff = 0#9 ∧ t.payLen = 0#9) ∧
    t.status.err = s.status.err ∧ t.errCode = s.errCode ∧ t.status.done = true

/-- A frame that differs in exactly one bit from a frame VALIDATE_RTU accepts is not accepted (R111, R142). -/
def Obligations.OneBitCorruptionIsRejected : Prop :=
  ∀ s r : State, idle s → idle r → r.rxLen = s.rxLen → r.expUnit = s.expUnit →
    (∃ j k : Nat, j < s.rxLen.val ∧ k < 8 ∧ r.rxAt j = s.rxAt j ^^^ (1#8 <<< k) ∧ ∀ i, i ≠ j → r.rxAt i = s.rxAt i) →
      ∃ s' r', exec .validateRtu s = .next s' ∧ exec .validateRtu r = .next r' ∧
        (s'.result = .ok → r'.result ≠ .ok)

/-- A frame that the host loads through RXBUF and RX_LEN is accepted by VALIDATE_RTU exactly when its bytes satisfy the
acceptance rule (R57, R101, R142, R146). -/
def Obligations.HostLoadedFrameIsJudgedByItsBytes : Prop :=
  ∀ (s : State) (bs : List Byte), s.rstHigh = true → idle s → bs.length ≤ 256 →
    ∃ t, afterEvents (loadrx bs ++ [cmd .validateRtu]) s = .next t ∧
      (t.result = .ok ↔
        4 ≤ bs.length ∧ bs[0]? = some s.expUnit ∧ bs[1]? = some 0x03#8 ∧
        bs.drop (bs.length - 2) = [(crc16 (bs.take (bs.length - 2))).extractLsb' 0 8,
          (crc16 (bs.take (bs.length - 2))).extractLsb' 8 8])

/-! ## The Modbus-TCP header validator -/

/-- VALIDATE_TCP, CMD 0x0006, the whole next state: while a transfer is open it is refused with BUSY; in IDLE an ADU of fewer than 8 bytes is SHORT with every field 0; a longer one leaves
its fields, the first failing check and, for OK, the payload; CRC is unchanged (R149). -/
def Obligations.ValidateTcpEffect : Prop :=
  decode ⟨0x003#9, 0x0006#16⟩ = .instr .validateTcp ∧
  (∀ s : State, (s.status.txact = true ∨ s.status.rxact = true) →
    exec .validateTcp s = .next { s with errCode := .busy, status := { s.status with err := true } }) ∧
  ∀ s : State, idle s →
    let n := s.rxLen.val
    (n < 8 →
      exec .validateTcp s = .next { s with
        rxCrc := 0, payOff := 0, payLen := 0, mbTid := 0, mbPid := 0, mbLen := 0, respUnit := 0, respFc := 0
        result := .short
        status := { s.status with done := true } }) ∧
    (8 ≤ n → ∀ v : Verdict,
      v = (if (s.rxAt 2 ++ s.rxAt 3 : Word) ≠ 0x0000#16 then .mbapProto
           else if (s.rxAt 4 ++ s.rxAt 5 : Word).toNat ≠ n - 6 then .mbapLen
           else if s.rxAt 6 ≠ s.expUnit then .unitMismatch
           else if s.rxAt 7 ≠ 0x03#8 then .fcMismatch
           else .ok) →
      exec .validateTcp s = .next { s with
        rxCrc := 0
        mbTid := s.rxAt 0 ++ s.rxAt 1, mbPid := s.rxAt 2 ++ s.rxAt 3, mbLen := s.rxAt 4 ++ s.rxAt 5
        respUnit := s.rxAt 6, respFc := s.rxAt 7
        result := v
        payOff := if v = .ok then 8#9 else 0#9
        payLen := if v = .ok then BitVec.ofNat 9 (n - 8) else 0#9
        status := { s.status with done := true } })

/-- When several checks of VALIDATE_TCP fail, the first of SHORT, MBAP_PROTO, MBAP_LEN, UNIT_MISMATCH, FC_MISMATCH names the
result; with none failing it is OK, and no outcome is an error (R150, R164). -/
def Obligations.TcpCheckOrder : Prop :=
  ∀ s : State, idle s → ∃ t, exec .validateTcp s = .next t ∧
    (s.rxLen.val < 8 → t.result = .short) ∧
    (8 ≤ s.rxLen.val → s.rxWord 2 ≠ 0x0000#16 → t.result = .mbapProto) ∧
    (8 ≤ s.rxLen.val → s.rxWord 2 = 0x0000#16 → (s.rxWord 4).toNat + 6 ≠ s.rxLen.val → t.result = .mbapLen) ∧
    (8 ≤ s.rxLen.val → s.rxWord 2 = 0x0000#16 → (s.rxWord 4).toNat + 6 = s.rxLen.val → s.rxAt 6 ≠ s.expUnit →
      t.result = .unitMismatch) ∧
    (8 ≤ s.rxLen.val → s.rxWord 2 = 0x0000#16 → (s.rxWord 4).toNat + 6 = s.rxLen.val → s.rxAt 6 = s.expUnit →
      s.rxAt 7 ≠ 0x03#8 → t.result = .fcMismatch) ∧
    (8 ≤ s.rxLen.val → s.rxWord 2 = 0x0000#16 → (s.rxWord 4).toNat + 6 = s.rxLen.val → s.rxAt 6 = s.expUnit →
      s.rxAt 7 = 0x03#8 → t.result = .ok) ∧
    t.status.err = s.status.err ∧ t.errCode = s.errCode

/-! ## Control -/

/-- NOP changes nothing, in every state (R156). -/
def Obligations.NopChangesNothing : Prop :=
  decode ⟨0x003#9, 0x0000#16⟩ = .instr .nop ∧ ∀ s : State, exec .nop s = .next s

/-- A CMD value 0x0008..0xFFFF records ILLEGAL_CMD in ERR_CODE and ERR and changes nothing else, in every state (R88). -/
def Obligations.IllegalCommandsRecordTheError : Prop :=
  ∀ (v : Word) (s : State), 0x0008 ≤ v.toNat →
    decode ⟨0x003#9, v⟩ = .instr (.illegalCmd v) ∧
    exec (.illegalCmd v) s = .next { s with errCode := .illegalCmd, status := { s.status with err := true } }

/-- ABORT, CMD 0x0007, clears TXACT and RXACT, gives an open window RX_END = ABORT, sets DONE, and changes nothing else, in every state
(R160). -/
def Obligations.AbortEndsTheTransfer : Prop :=
  decode ⟨0x003#9, 0x0007#16⟩ = .instr .abort ∧
  ∀ s : State, exec .abort s = .next { s with
    rxEnd := if s.status.rxact = true then .abort else s.rxEnd
    status := { s.status with txact := false, rxact := false, done := true } }

/-- SOFT_RESET gives every register its reset value and TX zeros and keeps RX, in every state, whatever the other bits of the
value written (R158, R182). -/
def Obligations.SoftResetRestoresAllButRx : Prop :=
  (∀ v : Word, v.getLsbD 15 = true → decode ⟨0x000#9, v⟩ = .instr .softReset) ∧
  ∀ s : State, ∃ t, exec .softReset s = .next t ∧ (∀ r : Reg, t.readReg r = State.reset.readReg r) ∧
    (∀ i : Fin 8, t.tx[i.val] = 0x00#8) ∧ (∀ a, t.rxAt a = s.rxAt a) ∧ t.fsm = .idle ∧ t.driverEnable = false ∧ t.txValid = false ∧ t.irq = false ∧
    t = { State.reset with
      rx := s.rx, rxDraw := s.rxDraw, pending := s.pending, wire := s.wire, busRdata := t.busRdata, rstHigh := s.rstHigh }

/-- A CTRL configuration write stores EN, AUTORX and a legal BAUD and keeps BAUD for the codes 5 to 7; where it takes EN from
1 to 0 while BUSY it ends the transfer as ABORT does, with DONE; and it changes nothing else (R23, R159, R160). -/
def Obligations.CtrlWriteConfiguresThePort : Prop :=
  (∀ v : Word, v.getLsbD 15 = true → decode ⟨0x000#9, v⟩ = .instr .softReset) ∧
  (∀ v : Word, v.getLsbD 15 = false →
    decode ⟨0x000#9, v⟩ = .instr (.ctrlWrite (v.getLsbD 0) (v.getLsbD 1) (v.extractLsb' 2 3))) ∧
  ∀ (s : State) (en autorx : Bool) (baud : BitVec 3),
    let kept : Baud := if baud = 0#3 then .b9600 else if baud = 1#3 then .b19200 else if baud = 2#3 then .b38400
      else if baud = 3#3 then .b57600 else if baud = 4#3 then .b115200 else s.ctrl.baud
    (¬ (s.ctrl.en = true ∧ en = false ∧ (s.status.txact = true ∨ s.status.rxact = true)) →
      exec (.ctrlWrite en autorx baud) s = .next { s with ctrl := { en := en, autorx := autorx, baud := kept } }) ∧
    (s.ctrl.en = true → en = false → (s.status.txact = true ∨ s.status.rxact = true) →
      exec (.ctrlWrite en autorx baud) s = .next { s with
        ctrl := { en := false, autorx := autorx, baud := kept }
        rxEnd := if s.status.rxact = true then .abort else s.rxEnd
        status := { s.status with txact := false, rxact := false, done := true } })

/-! ## Host accesses -/

/-- A host write of a plain register stores the bits the register has, in every state, and changes nothing else (R25, R28 to
R32, R37, R41, R42, R69). -/
def Obligations.PlainWritesStoreTheirBits : Prop :=
  ∀ (s : State) (v : Word) (rest : List Event), s.rstHigh = true →
    (s.pending = wr .irqEn v :: rest → step s = .next { s with pending := rest, irqEn := v &&& 0x01F8#16 }) ∧
    (s.pending = wr .unitId v :: rest → step s = .next { s with pending := rest, unitId := v.extractLsb' 0 8 }) ∧
    (s.pending = wr .func v :: rest → step s = .next { s with pending := rest, func := v.extractLsb' 0 8 }) ∧
    (s.pending = wr .startAddr v :: rest → step s = .next { s with pending := rest, startAddr := v }) ∧
    (s.pending = wr .quantity v :: rest → step s = .next { s with pending := rest, quantity := v }) ∧
    (s.pending = wr .expUnit v :: rest → step s = .next { s with pending := rest, expUnit := v.extractLsb' 0 8 }) ∧
    (s.pending = wr .txTimeout v :: rest → step s = .next { s with pending := rest, txTimeout := v }) ∧
    (s.pending = wr .rxTimeout v :: rest → step s = .next { s with pending := rest, rxTimeout := v }) ∧
    (s.pending = wr .gapTicks v :: rest → step s = .next { s with pending := rest, gapTicks := v })

/-- Writes of RX_LEN, MAX_RX and RXBUF are refused with BUSY while RXACT = 1; otherwise a legal value is stored, and an illegal
one leaves the register as it is with no error (R39, R40, R57, R155, R157). -/
def Obligations.ReceiverRegisterWrites : Prop :=
  ∀ (s : State) (v : Word) (i : Fin 256) (e : Event) (rest : List Event), s.rstHigh = true → s.pending = e :: rest →
    (s.status.rxact = true → (e = wr .rxLen v ∨ e = wr .maxRx v ∨ e = .memWrite ⟨rxbufSlot i.val, v⟩) →
      step s = .next { s with pending := rest, errCode := .busy, status := { s.status with err := true } }) ∧
    (s.status.rxact = false → e = wr .rxLen v →
      ∃ t, step s = .next t ∧ t = { s with pending := rest, rxLen := t.rxLen } ∧
        t.rxLen.val = if v.toNat ≤ 256 then v.toNat else s.rxLen.val) ∧
    (s.status.rxact = false → e = wr .maxRx v →
      ∃ t, step s = .next t ∧ t = { s with pending := rest, maxRx := t.maxRx } ∧
        t.maxRx.val = if 1 ≤ v.toNat ∧ v.toNat ≤ 256 then v.toNat else s.maxRx.val) ∧
    (s.status.rxact = false → e = .memWrite ⟨rxbufSlot i.val, v⟩ →
      ∃ t, step s = .next t ∧ t = { s with pending := rest, rx := t.rx } ∧ t.rxAt i.val = v.extractLsb' 0 8 ∧
        ∀ a, a ≠ i.val → t.rxAt a = s.rxAt a)

/-- A host write of STATUS clears each of the bits 3 to 8 whose written bit is 1, and ERR_CODE with ERR; it leaves every other
bit and everything else as it is, in every state (R24, R27, R172). -/
def Obligations.StatusWriteClearsTheWrittenFlags : Prop :=
  ∀ (s : State) (v : Word) (rest : List Event), s.rstHigh = true → s.pending = wr .status v :: rest →
    ∃ t, step s = .next t ∧
      (∀ k, t.statusWord.getLsbD k = (s.statusWord.getLsbD k && !(decide (3 ≤ k) && decide (k ≤ 8) && v.getLsbD k))) ∧
      t.errCode = (if v.getLsbD 7 = true then .none else s.errCode) ∧
      t = { s with pending := rest, status := t.status, errCode := t.errCode }

/-- A host read puts the slot's value on the bus and changes no state of the block; the value is that of the fields alone, so the
same read again returns it again: CMD and CRC_DATA read 0, CTRL bit 15 reads 0, STATUS bit 0 reads TXACT OR RXACT, and a
reserved slot reads 0 (R68). -/
def Obligations.ReadsHaveNoSideEffect : Prop :=
  ∀ (s : State) (idx : SlotIdx) (rest : List Event), s.rstHigh = true → s.pending = .memRead idx :: rest →
    ∃ v : Word, step s = .next { s with pending := rest, busRdata := v } ∧
      step { s with busRdata := v } = .next { s with pending := rest, busRdata := v } ∧
      v = s.readSlot (slotOf idx) ∧
      (idx = 0x003#9 ∨ idx = 0x00B#9 → v = 0x0000#16) ∧
      (idx = 0x000#9 → v.getLsbD 15 = false) ∧
      (idx = 0x001#9 → v.getLsbD 0 = (s.status.txact || s.status.rxact)) ∧
      ((0x021 ≤ idx.toNat ∧ idx.toNat ≤ 0x03F) ∨ (0x048 ≤ idx.toNat ∧ idx.toNat ≤ 0x0FF) → v = 0x0000#16)

/-- What each register, TXBUF and RXBUF read, field by field, unnamed bits 0: every word is given whole, and those of IRQ_EN are 0
in every state with the invariant (the register rules R23 to R57, R66). A byte of RX that nothing has written since power-on
reads as the free draw (R187; that the draw is Config.rxPowerOn is the model's choice, notes/assumptions/2). -/
def Obligations.ReadsReturnTheFields : Prop :=
  ∀ s : State,
    (∀ p ∈ [(0x002#9, s.irqEn), (0x005#9, s.unitId.setWidth 16), (0x006#9, s.func.setWidth 16), (0x007#9, s.startAddr),
        (0x008#9, s.quantity), (0x009#9, s.expUnit.setWidth 16), (0x00A#9, s.crc), (0x00C#9, BitVec.ofNat 16 s.txLen.val),
        (0x00D#9, BitVec.ofNat 16 s.txPos.val), (0x00E#9, s.txTimeout), (0x00F#9, s.txElapsed),
        (0x010#9, BitVec.ofNat 16 s.rxLen.val), (0x011#9, BitVec.ofNat 16 s.maxRx.val)] ++
        [(0x012#9, s.rxTimeout), (0x013#9, s.gapTicks), (0x014#9, s.rxElapsed), (0x015#9, s.rxSilence),
        (0x018#9, s.respUnit.setWidth 16), (0x019#9, s.respFc.setWidth 16), (0x01A#9, s.rxCrc),
        (0x01B#9, s.payOff.setWidth 16), (0x01C#9, s.payLen.setWidth 16), (0x01D#9, s.mbTid), (0x01E#9, s.mbPid),
        (0x01F#9, s.mbLen), (0x020#9, 502#16)],
      s.readSlot (slotOf p.1) = p.2) ∧
    (Inv s → s.readSlot (slotOf 0x002#9) &&& 0x01F8#16 = s.readSlot (slotOf 0x002#9)) ∧
    (∀ c n, (c, n) ∈ [(Baud.b9600, 0#3), (.b19200, 1#3), (.b38400, 2#3), (.b57600, 3#3), (.b115200, 4#3)] →
      s.ctrl.baud = c →
        s.readSlot (slotOf 0x000#9) = 0#11 ++ n ++ BitVec.ofBool s.ctrl.autorx ++ BitVec.ofBool s.ctrl.en) ∧
    (∀ k, (s.readSlot (slotOf 0x001#9)).getLsbD k =
      ((decide (k = 0) && (s.status.txact || s.status.rxact)) || (decide (k = 1) && s.status.txact) ||
       (decide (k = 2) && s.status.rxact) || (decide (k = 3) && s.status.done) || (decide (k = 4) && s.status.txdone) ||
       (decide (k = 5) && s.status.rxdone) || (decide (k = 6) && s.status.rxto) || (decide (k = 7) && s.status.err) ||
       (decide (k = 8) && s.status.drop))) ∧
    (∀ c n, (c, n) ∈ [(ErrCode.none, 0#16), (.illegalCmd, 1#16), (.busy, 2#16), (.cfgErr, 3#16), (.portUnavail, 4#16),
        (.noFrame, 5#16), (.txTimeout, 6#16)] → s.errCode = c → s.readSlot (slotOf 0x004#9) = n) ∧
    (∀ c n, (c, n) ∈ [(RxEnd.none, 0#16), (.full, 1#16), (.gap, 2#16), (.window, 3#16), (.timeout, 4#16), (.abort, 5#16)] →
      s.rxEnd = c → s.readSlot (slotOf 0x016#9) = n) ∧
    (∀ c n, (c, n) ∈ [(Verdict.none, 0#16), (.ok, 1#16), (.short, 2#16), (.unitMismatch, 3#16), (.fcMismatch, 4#16),
        (.crcFail, 5#16), (.mbapProto, 6#16), (.mbapLen, 7#16)] → s.result = c → s.readSlot (slotOf 0x017#9) = n) ∧
    (∀ i : Fin 8, s.readSlot (slotOf (BitVec.ofNat 9 (0x040 + i.val))) = (s.tx[i.val]).setWidth 16) ∧
    (∀ i : Fin 256, s.readSlot (slotOf (BitVec.ofNat 9 (0x100 + i.val))) = (s.rxAt i.val).setWidth 16) ∧
    (∀ i : Fin 256, Memory.read s.rx i.val = none →
      s.readSlot (slotOf (BitVec.ofNat 9 (0x100 + i.val))) = (Config.rxPowerOn s.rxDraw i.val).setWidth 16)

/-- A read of a register after a write of it returns the bits the register has and 0 elsewhere; a CTRL write with SRST = 0 and a
legal BAUD reads back EN, AUTORX and BAUD; and outside a receive window RX_LEN and MAX_RX read back a legal value, and the old
one after an illegal one (R23, R25, R28 to R33, R37, R39 to R42, R57, R66). -/
def Obligations.ReadAfterWriteReturnsTheBits : Prop :=
  ∀ (s : State) (v : Word), s.rstHigh = true →
    (∀ p ∈ [(Reg.irqEn, 0x01F8#16), (.unitId, 0x00FF#16), (.func, 0x00FF#16), (.expUnit, 0x00FF#16),
        (.startAddr, 0xFFFF#16), (.quantity, 0xFFFF#16), (.crc, 0xFFFF#16), (.txTimeout, 0xFFFF#16),
        (.rxTimeout, 0xFFFF#16), (.gapTicks, 0xFFFF#16)],
      ∃ t, afterEvents [wr p.1 v, rd p.1] s = .next t ∧ t.busRdata = v &&& p.2) ∧
    (v.getLsbD 15 = false → (v.extractLsb' 2 3).toNat ≤ 4 →
      ∃ t, afterEvents [wr .ctrl v, rd .ctrl] s = .next t ∧ t.busRdata = v &&& 0x001F#16) ∧
    (s.status.rxact = false →
      (∃ t, afterEvents [wr .rxLen v, rd .rxLen] s = .next t ∧
        t.busRdata.toNat = if v.toNat ≤ 256 then v.toNat else s.rxLen.val) ∧
      (∃ t, afterEvents [wr .maxRx v, rd .maxRx] s = .next t ∧
        t.busRdata.toNat = if 1 ≤ v.toNat ∧ v.toNat ≤ 256 then v.toNat else s.maxRx.val)) ∧
    (s.status.rxact = false → ∀ i : Fin 256,
      ∃ t, afterEvents [.memWrite ⟨rxbufSlot i.val, v⟩, rdRxbuf i.val] s = .next t ∧ t.busRdata = v &&& 0x00FF#16)

/-- A reserved slot reads 0 and ignores writes without error (R70); and writes of the read-only registers and of TXBUF are ignored
without error too (R22, R69). -/
def Obligations.ReservedAndReadOnlyWritesAreIgnored : Prop :=
  ∀ (s : State) (idx : SlotIdx) (v : Word) (rest : List Event), s.rstHigh = true →
    ((0x021 ≤ idx.toNat ∧ idx.toNat ≤ 0x03F) ∨ (0x048 ≤ idx.toNat ∧ idx.toNat ≤ 0x0FF) →
      s.pending = .memRead idx :: rest → step s = .next { s with pending := rest, busRdata := 0x0000#16 }) ∧
    ((0x021 ≤ idx.toNat ∧ idx.toNat ≤ 0x0FF) ∨ (0x013 < idx.toNat ∧ idx.toNat ≤ 0x020) ∨
      idx = 0x004#9 ∨ idx = 0x00C#9 ∨ idx = 0x00D#9 ∨ idx = 0x00F#9 →
      s.pending = .memWrite ⟨idx, v⟩ :: rest → step s = .next { s with pending := rest })

/-- The values that the registers and TXBUF read right after reset, the reset column of R22, RX the free draw, and the outputs at
rest (R22, R181; that the draw is Config.rxPowerOn of the power-on's number is the model's choice,
notes/assumptions/2; the number itself plays no part). -/
def Obligations.ResetRegisterValues : Prop :=
  (∀ p ∈ [(Reg.ctrl, 0x0002#16), (.status, 0x0000#16), (.irqEn, 0x0000#16), (.cmd, 0x0000#16), (.errCode, 0x0000#16),
      (.unitId, 0x0001#16), (.func, 0x0003#16), (.startAddr, 0x0000#16), (.quantity, 0x0001#16), (.expUnit, 0x0001#16),
      (.crc, 0xFFFF#16), (.crcData, 0x0000#16), (.txLen, 0x0000#16), (.txPos, 0x0000#16), (.txTimeout, 0x03E8#16),
      (.txElapsed, 0x0000#16)] ++
      [(.rxLen, 0x0000#16), (.maxRx, 0x0100#16), (.rxTimeout, 0x03E8#16), (.gapTicks, 0x0004#16), (.rxElapsed, 0x0000#16),
      (.rxSilence, 0x0000#16), (.rxEnd, 0x0000#16), (.result, 0x0000#16), (.respUnit, 0x0000#16), (.respFc, 0x0000#16),
      (.rxCrc, 0x0000#16), (.payOff, 0x0000#16), (.payLen, 0x0000#16), (.mbTid, 0x0000#16), (.mbPid, 0x0000#16),
      (.mbLen, 0x0000#16), (.tcpPort, 0x01F6#16)],
    State.reset.readSlot (slotOf p.1.slot) = p.2) ∧
  (∀ i : Fin 8, State.reset.readSlot (slotOf (txbufSlot i.val)) = 0x0000#16) ∧
  (∀ i, State.reset.rxAt i = Config.rxPowerOn State.reset.rxDraw i) ∧
  State.reset.fsm = .idle ∧ State.reset.txValid = false ∧ State.reset.driverEnable = false ∧ State.reset.txData = 0x00#8 ∧
  State.reset.irq = false

/-- `rst_n` falling gives the reset state with RX drawn anew; while it is low, writes, line events and ticks are ignored and
bus reads return 0, and the outputs are at rest; and when it rises the block is in that state and takes events (R183; that RX is
drawn anew at the fall, and what the wire and `bus_rdata` then hold, is the model's choice, notes/assumptions/2, 3 and 10). -/
def Obligations.HardwareResetHoldsTheBlock : Prop :=
  ∀ (s : State) (rest : List Event),
    (s.rstHigh = true → s.pending = .rstN false :: rest →
      step s = .next { State.reset with rxDraw := s.rxDraw + 1, pending := rest, wire := s.wire, rstHigh := false }) ∧
    (s.rstHigh = false → ∀ e, s.pending = e :: rest → (∀ b, e ≠ .rstN b) →
      step s = .next { s with pending := rest, busRdata := if ∃ idx, e = .memRead idx then 0x0000#16 else s.busRdata }) ∧
    (s.rstHigh = false → s.pending = .rstN true :: rest → step s = .next { s with pending := rest, rstHigh := true }) ∧
    (Inv s → s.rstHigh = false →
      s = { State.reset with rxDraw := s.rxDraw, pending := s.pending, wire := s.wire, rstHigh := false } ∧
      s.driverEnable = false ∧ s.txValid = false ∧ s.txData = 0x00#8 ∧ s.irq = false)

/-- The interrupt output is 1 exactly when some flag of the STATUS bits 3 to 8 is set whose enable in IRQ_EN is 1
(R169, R170). -/
def Obligations.InterruptIsAnEnabledFlag : Prop :=
  ∀ s : State, s.irq = true ↔
    (s.status.done = true ∧ s.irqEn.getLsbD 3 = true) ∨ (s.status.txdone = true ∧ s.irqEn.getLsbD 4 = true) ∨
    (s.status.rxdone = true ∧ s.irqEn.getLsbD 5 = true) ∨ (s.status.rxto = true ∧ s.irqEn.getLsbD 6 = true) ∨
    (s.status.err = true ∧ s.irqEn.getLsbD 7 = true) ∨ (s.status.drop = true ∧ s.irqEn.getLsbD 8 = true)

/-- The output ports: `tx_valid` and `de` are TXACT, `tx_data` is TX[TX_POS] while TXACT = 1 and 0x00 otherwise; so an accepted
SEND drives the line with TX[0], and the line is never driven while a receive window is open (the ports of R19; R120, R141). -/
def Obligations.OutputPortsFollowTheTransmitter : Prop :=
  ∀ s : State,
    s.txValid = s.status.txact ∧ s.driverEnable = s.status.txact ∧
    (s.status.txact = true → ∀ h : s.txPos.val < 8, s.txData = s.tx[s.txPos.val]) ∧
    (s.status.txact = false → s.txData = 0x00#8) ∧
    (idle s → s.ctrl.en = true → s.txLen.val ≠ 0 →
      ∃ t, exec .send s = .next t ∧ t.txValid = true ∧ t.driverEnable = true ∧ t.txData = s.tx[0]) ∧
    (Inv s → s.status.rxact = true → s.driverEnable = false ∧ s.txValid = false)
end

