-- ==== Sys2Proof/Laws/State.lean ====
section
/-! SUPPORT. One lemma per field per named update of State: what the update writes, and that it leaves every other field. -/

namespace Sys2Proof.Machine

variable (s : State)


/-! setPending writes the events to come. -/

@[simp] theorem State.setPending_ctrl (es : List Event) : (s.setPending es).ctrl = s.ctrl := rfl
@[simp] theorem State.setPending_status (es : List Event) : (s.setPending es).status = s.status := rfl
@[simp] theorem State.setPending_irqEn (es : List Event) : (s.setPending es).irqEn = s.irqEn := rfl
@[simp] theorem State.setPending_errCode (es : List Event) : (s.setPending es).errCode = s.errCode := rfl
@[simp] theorem State.setPending_unitId (es : List Event) : (s.setPending es).unitId = s.unitId := rfl
@[simp] theorem State.setPending_func (es : List Event) : (s.setPending es).func = s.func := rfl
@[simp] theorem State.setPending_startAddr (es : List Event) : (s.setPending es).startAddr = s.startAddr := rfl
@[simp] theorem State.setPending_quantity (es : List Event) : (s.setPending es).quantity = s.quantity := rfl
@[simp] theorem State.setPending_expUnit (es : List Event) : (s.setPending es).expUnit = s.expUnit := rfl
@[simp] theorem State.setPending_crc (es : List Event) : (s.setPending es).crc = s.crc := rfl
@[simp] theorem State.setPending_txLen (es : List Event) : (s.setPending es).txLen = s.txLen := rfl
@[simp] theorem State.setPending_txPos (es : List Event) : (s.setPending es).txPos = s.txPos := rfl
@[simp] theorem State.setPending_txTimeout (es : List Event) : (s.setPending es).txTimeout = s.txTimeout := rfl
@[simp] theorem State.setPending_txElapsed (es : List Event) : (s.setPending es).txElapsed = s.txElapsed := rfl
@[simp] theorem State.setPending_rxLen (es : List Event) : (s.setPending es).rxLen = s.rxLen := rfl
@[simp] theorem State.setPending_maxRx (es : List Event) : (s.setPending es).maxRx = s.maxRx := rfl
@[simp] theorem State.setPending_rxTimeout (es : List Event) : (s.setPending es).rxTimeout = s.rxTimeout := rfl
@[simp] theorem State.setPending_gapTicks (es : List Event) : (s.setPending es).gapTicks = s.gapTicks := rfl
@[simp] theorem State.setPending_rxElapsed (es : List Event) : (s.setPending es).rxElapsed = s.rxElapsed := rfl
@[simp] theorem State.setPending_rxSilence (es : List Event) : (s.setPending es).rxSilence = s.rxSilence := rfl
@[simp] theorem State.setPending_rxEnd (es : List Event) : (s.setPending es).rxEnd = s.rxEnd := rfl
@[simp] theorem State.setPending_result (es : List Event) : (s.setPending es).result = s.result := rfl
@[simp] theorem State.setPending_respUnit (es : List Event) : (s.setPending es).respUnit = s.respUnit := rfl
@[simp] theorem State.setPending_respFc (es : List Event) : (s.setPending es).respFc = s.respFc := rfl
@[simp] theorem State.setPending_rxCrc (es : List Event) : (s.setPending es).rxCrc = s.rxCrc := rfl
@[simp] theorem State.setPending_payOff (es : List Event) : (s.setPending es).payOff = s.payOff := rfl
@[simp] theorem State.setPending_payLen (es : List Event) : (s.setPending es).payLen = s.payLen := rfl
@[simp] theorem State.setPending_mbTid (es : List Event) : (s.setPending es).mbTid = s.mbTid := rfl
@[simp] theorem State.setPending_mbPid (es : List Event) : (s.setPending es).mbPid = s.mbPid := rfl
@[simp] theorem State.setPending_mbLen (es : List Event) : (s.setPending es).mbLen = s.mbLen := rfl
@[simp] theorem State.setPending_tx (es : List Event) : (s.setPending es).tx = s.tx := rfl
@[simp] theorem State.setPending_rx (es : List Event) : (s.setPending es).rx = s.rx := rfl
@[simp] theorem State.setPending_rxDraw (es : List Event) : (s.setPending es).rxDraw = s.rxDraw := rfl
@[simp] theorem State.setPending_pending (es : List Event) : (s.setPending es).pending = es := rfl
@[simp] theorem State.setPending_wire (es : List Event) : (s.setPending es).wire = s.wire := rfl
@[simp] theorem State.setPending_busRdata (es : List Event) : (s.setPending es).busRdata = s.busRdata := rfl
@[simp] theorem State.setPending_rstHigh (es : List Event) : (s.setPending es).rstHigh = s.rstHigh := rfl

/-! setDone writes STATUS.DONE (R161). -/

@[simp] theorem State.setDone_ctrl : (s.setDone).ctrl = s.ctrl := rfl
@[simp] theorem State.setDone_status_txact : (s.setDone).status.txact = s.status.txact := rfl
@[simp] theorem State.setDone_status_rxact : (s.setDone).status.rxact = s.status.rxact := rfl
@[simp] theorem State.setDone_status_done : (s.setDone).status.done = true := rfl
@[simp] theorem State.setDone_status_txdone : (s.setDone).status.txdone = s.status.txdone := rfl
@[simp] theorem State.setDone_status_rxdone : (s.setDone).status.rxdone = s.status.rxdone := rfl
@[simp] theorem State.setDone_status_rxto : (s.setDone).status.rxto = s.status.rxto := rfl
@[simp] theorem State.setDone_status_err : (s.setDone).status.err = s.status.err := rfl
@[simp] theorem State.setDone_status_drop : (s.setDone).status.drop = s.status.drop := rfl
@[simp] theorem State.setDone_irqEn : (s.setDone).irqEn = s.irqEn := rfl
@[simp] theorem State.setDone_errCode : (s.setDone).errCode = s.errCode := rfl
@[simp] theorem State.setDone_unitId : (s.setDone).unitId = s.unitId := rfl
@[simp] theorem State.setDone_func : (s.setDone).func = s.func := rfl
@[simp] theorem State.setDone_startAddr : (s.setDone).startAddr = s.startAddr := rfl
@[simp] theorem State.setDone_quantity : (s.setDone).quantity = s.quantity := rfl
@[simp] theorem State.setDone_expUnit : (s.setDone).expUnit = s.expUnit := rfl
@[simp] theorem State.setDone_crc : (s.setDone).crc = s.crc := rfl
@[simp] theorem State.setDone_txLen : (s.setDone).txLen = s.txLen := rfl
@[simp] theorem State.setDone_txPos : (s.setDone).txPos = s.txPos := rfl
@[simp] theorem State.setDone_txTimeout : (s.setDone).txTimeout = s.txTimeout := rfl
@[simp] theorem State.setDone_txElapsed : (s.setDone).txElapsed = s.txElapsed := rfl
@[simp] theorem State.setDone_rxLen : (s.setDone).rxLen = s.rxLen := rfl
@[simp] theorem State.setDone_maxRx : (s.setDone).maxRx = s.maxRx := rfl
@[simp] theorem State.setDone_rxTimeout : (s.setDone).rxTimeout = s.rxTimeout := rfl
@[simp] theorem State.setDone_gapTicks : (s.setDone).gapTicks = s.gapTicks := rfl
@[simp] theorem State.setDone_rxElapsed : (s.setDone).rxElapsed = s.rxElapsed := rfl
@[simp] theorem State.setDone_rxSilence : (s.setDone).rxSilence = s.rxSilence := rfl
@[simp] theorem State.setDone_rxEnd : (s.setDone).rxEnd = s.rxEnd := rfl
@[simp] theorem State.setDone_result : (s.setDone).result = s.result := rfl
@[simp] theorem State.setDone_respUnit : (s.setDone).respUnit = s.respUnit := rfl
@[simp] theorem State.setDone_respFc : (s.setDone).respFc = s.respFc := rfl
@[simp] theorem State.setDone_rxCrc : (s.setDone).rxCrc = s.rxCrc := rfl
@[simp] theorem State.setDone_payOff : (s.setDone).payOff = s.payOff := rfl
@[simp] theorem State.setDone_payLen : (s.setDone).payLen = s.payLen := rfl
@[simp] theorem State.setDone_mbTid : (s.setDone).mbTid = s.mbTid := rfl
@[simp] theorem State.setDone_mbPid : (s.setDone).mbPid = s.mbPid := rfl
@[simp] theorem State.setDone_mbLen : (s.setDone).mbLen = s.mbLen := rfl
@[simp] theorem State.setDone_tx : (s.setDone).tx = s.tx := rfl
@[simp] theorem State.setDone_rx : (s.setDone).rx = s.rx := rfl
@[simp] theorem State.setDone_rxDraw : (s.setDone).rxDraw = s.rxDraw := rfl
@[simp] theorem State.setDone_pending : (s.setDone).pending = s.pending := rfl
@[simp] theorem State.setDone_wire : (s.setDone).wire = s.wire := rfl
@[simp] theorem State.setDone_busRdata : (s.setDone).busRdata = s.busRdata := rfl
@[simp] theorem State.setDone_rstHigh : (s.setDone).rstHigh = s.rstHigh := rfl

/-! raiseError writes ERR_CODE and STATUS.ERR (R157, R162). -/

@[simp] theorem State.raiseError_ctrl (e : ErrCode) : (s.raiseError e).ctrl = s.ctrl := rfl
@[simp] theorem State.raiseError_status_txact (e : ErrCode) : (s.raiseError e).status.txact = s.status.txact := rfl
@[simp] theorem State.raiseError_status_rxact (e : ErrCode) : (s.raiseError e).status.rxact = s.status.rxact := rfl
@[simp] theorem State.raiseError_status_done (e : ErrCode) : (s.raiseError e).status.done = s.status.done := rfl
@[simp] theorem State.raiseError_status_txdone (e : ErrCode) : (s.raiseError e).status.txdone = s.status.txdone := rfl
@[simp] theorem State.raiseError_status_rxdone (e : ErrCode) : (s.raiseError e).status.rxdone = s.status.rxdone := rfl
@[simp] theorem State.raiseError_status_rxto (e : ErrCode) : (s.raiseError e).status.rxto = s.status.rxto := rfl
@[simp] theorem State.raiseError_status_err (e : ErrCode) : (s.raiseError e).status.err = true := rfl
@[simp] theorem State.raiseError_status_drop (e : ErrCode) : (s.raiseError e).status.drop = s.status.drop := rfl
@[simp] theorem State.raiseError_irqEn (e : ErrCode) : (s.raiseError e).irqEn = s.irqEn := rfl
@[simp] theorem State.raiseError_errCode (e : ErrCode) : (s.raiseError e).errCode = e := rfl
@[simp] theorem State.raiseError_unitId (e : ErrCode) : (s.raiseError e).unitId = s.unitId := rfl
@[simp] theorem State.raiseError_func (e : ErrCode) : (s.raiseError e).func = s.func := rfl
@[simp] theorem State.raiseError_startAddr (e : ErrCode) : (s.raiseError e).startAddr = s.startAddr := rfl
@[simp] theorem State.raiseError_quantity (e : ErrCode) : (s.raiseError e).quantity = s.quantity := rfl
@[simp] theorem State.raiseError_expUnit (e : ErrCode) : (s.raiseError e).expUnit = s.expUnit := rfl
@[simp] theorem State.raiseError_crc (e : ErrCode) : (s.raiseError e).crc = s.crc := rfl
@[simp] theorem State.raiseError_txLen (e : ErrCode) : (s.raiseError e).txLen = s.txLen := rfl
@[simp] theorem State.raiseError_txPos (e : ErrCode) : (s.raiseError e).txPos = s.txPos := rfl
@[simp] theorem State.raiseError_txTimeout (e : ErrCode) : (s.raiseError e).txTimeout = s.txTimeout := rfl
@[simp] theorem State.raiseError_txElapsed (e : ErrCode) : (s.raiseError e).txElapsed = s.txElapsed := rfl
@[simp] theorem State.raiseError_rxLen (e : ErrCode) : (s.raiseError e).rxLen = s.rxLen := rfl
@[simp] theorem State.raiseError_maxRx (e : ErrCode) : (s.raiseError e).maxRx = s.maxRx := rfl
@[simp] theorem State.raiseError_rxTimeout (e : ErrCode) : (s.raiseError e).rxTimeout = s.rxTimeout := rfl
@[simp] theorem State.raiseError_gapTicks (e : ErrCode) : (s.raiseError e).gapTicks = s.gapTicks := rfl
@[simp] theorem State.raiseError_rxElapsed (e : ErrCode) : (s.raiseError e).rxElapsed = s.rxElapsed := rfl
@[simp] theorem State.raiseError_rxSilence (e : ErrCode) : (s.raiseError e).rxSilence = s.rxSilence := rfl
@[simp] theorem State.raiseError_rxEnd (e : ErrCode) : (s.raiseError e).rxEnd = s.rxEnd := rfl
@[simp] theorem State.raiseError_result (e : ErrCode) : (s.raiseError e).result = s.result := rfl
@[simp] theorem State.raiseError_respUnit (e : ErrCode) : (s.raiseError e).respUnit = s.respUnit := rfl
@[simp] theorem State.raiseError_respFc (e : ErrCode) : (s.raiseError e).respFc = s.respFc := rfl
@[simp] theorem State.raiseError_rxCrc (e : ErrCode) : (s.raiseError e).rxCrc = s.rxCrc := rfl
@[simp] theorem State.raiseError_payOff (e : ErrCode) : (s.raiseError e).payOff = s.payOff := rfl
@[simp] theorem State.raiseError_payLen (e : ErrCode) : (s.raiseError e).payLen = s.payLen := rfl
@[simp] theorem State.raiseError_mbTid (e : ErrCode) : (s.raiseError e).mbTid = s.mbTid := rfl
@[simp] theorem State.raiseError_mbPid (e : ErrCode) : (s.raiseError e).mbPid = s.mbPid := rfl
@[simp] theorem State.raiseError_mbLen (e : ErrCode) : (s.raiseError e).mbLen = s.mbLen := rfl
@[simp] theorem State.raiseError_tx (e : ErrCode) : (s.raiseError e).tx = s.tx := rfl
@[simp] theorem State.raiseError_rx (e : ErrCode) : (s.raiseError e).rx = s.rx := rfl
@[simp] theorem State.raiseError_rxDraw (e : ErrCode) : (s.raiseError e).rxDraw = s.rxDraw := rfl
@[simp] theorem State.raiseError_pending (e : ErrCode) : (s.raiseError e).pending = s.pending := rfl
@[simp] theorem State.raiseError_wire (e : ErrCode) : (s.raiseError e).wire = s.wire := rfl
@[simp] theorem State.raiseError_busRdata (e : ErrCode) : (s.raiseError e).busRdata = s.busRdata := rfl
@[simp] theorem State.raiseError_rstHigh (e : ErrCode) : (s.raiseError e).rstHigh = s.rstHigh := rfl

/-! clearStatus clears the written W1C bits, and ERR_CODE with ERR (R24, R27). -/

@[simp] theorem State.clearStatus_ctrl (v : Word) : (s.clearStatus v).ctrl = s.ctrl := rfl
@[simp] theorem State.clearStatus_status_txact (v : Word) : (s.clearStatus v).status.txact = s.status.txact := rfl
@[simp] theorem State.clearStatus_status_rxact (v : Word) : (s.clearStatus v).status.rxact = s.status.rxact := rfl
@[simp] theorem State.clearStatus_status_done (v : Word) : (s.clearStatus v).status.done = (s.status.done && !v.getLsbD 3) := rfl
@[simp] theorem State.clearStatus_status_txdone (v : Word) : (s.clearStatus v).status.txdone = (s.status.txdone && !v.getLsbD 4) := rfl
@[simp] theorem State.clearStatus_status_rxdone (v : Word) : (s.clearStatus v).status.rxdone = (s.status.rxdone && !v.getLsbD 5) := rfl
@[simp] theorem State.clearStatus_status_rxto (v : Word) : (s.clearStatus v).status.rxto = (s.status.rxto && !v.getLsbD 6) := rfl
@[simp] theorem State.clearStatus_status_err (v : Word) : (s.clearStatus v).status.err = (s.status.err && !v.getLsbD 7) := rfl
@[simp] theorem State.clearStatus_status_drop (v : Word) : (s.clearStatus v).status.drop = (s.status.drop && !v.getLsbD 8) := rfl
@[simp] theorem State.clearStatus_irqEn (v : Word) : (s.clearStatus v).irqEn = s.irqEn := rfl
@[simp] theorem State.clearStatus_errCode (v : Word) : (s.clearStatus v).errCode = if v.getLsbD 7 then .none else s.errCode := rfl
@[simp] theorem State.clearStatus_unitId (v : Word) : (s.clearStatus v).unitId = s.unitId := rfl
@[simp] theorem State.clearStatus_func (v : Word) : (s.clearStatus v).func = s.func := rfl
@[simp] theorem State.clearStatus_startAddr (v : Word) : (s.clearStatus v).startAddr = s.startAddr := rfl
@[simp] theorem State.clearStatus_quantity (v : Word) : (s.clearStatus v).quantity = s.quantity := rfl
@[simp] theorem State.clearStatus_expUnit (v : Word) : (s.clearStatus v).expUnit = s.expUnit := rfl
@[simp] theorem State.clearStatus_crc (v : Word) : (s.clearStatus v).crc = s.crc := rfl
@[simp] theorem State.clearStatus_txLen (v : Word) : (s.clearStatus v).txLen = s.txLen := rfl
@[simp] theorem State.clearStatus_txPos (v : Word) : (s.clearStatus v).txPos = s.txPos := rfl
@[simp] theorem State.clearStatus_txTimeout (v : Word) : (s.clearStatus v).txTimeout = s.txTimeout := rfl
@[simp] theorem State.clearStatus_txElapsed (v : Word) : (s.clearStatus v).txElapsed = s.txElapsed := rfl
@[simp] theorem State.clearStatus_rxLen (v : Word) : (s.clearStatus v).rxLen = s.rxLen := rfl
@[simp] theorem State.clearStatus_maxRx (v : Word) : (s.clearStatus v).maxRx = s.maxRx := rfl
@[simp] theorem State.clearStatus_rxTimeout (v : Word) : (s.clearStatus v).rxTimeout = s.rxTimeout := rfl
@[simp] theorem State.clearStatus_gapTicks (v : Word) : (s.clearStatus v).gapTicks = s.gapTicks := rfl
@[simp] theorem State.clearStatus_rxElapsed (v : Word) : (s.clearStatus v).rxElapsed = s.rxElapsed := rfl
@[simp] theorem State.clearStatus_rxSilence (v : Word) : (s.clearStatus v).rxSilence = s.rxSilence := rfl
@[simp] theorem State.clearStatus_rxEnd (v : Word) : (s.clearStatus v).rxEnd = s.rxEnd := rfl
@[simp] theorem State.clearStatus_result (v : Word) : (s.clearStatus v).result = s.result := rfl
@[simp] theorem State.clearStatus_respUnit (v : Word) : (s.clearStatus v).respUnit = s.respUnit := rfl
@[simp] theorem State.clearStatus_respFc (v : Word) : (s.clearStatus v).respFc = s.respFc := rfl
@[simp] theorem State.clearStatus_rxCrc (v : Word) : (s.clearStatus v).rxCrc = s.rxCrc := rfl
@[simp] theorem State.clearStatus_payOff (v : Word) : (s.clearStatus v).payOff = s.payOff := rfl
@[simp] theorem State.clearStatus_payLen (v : Word) : (s.clearStatus v).payLen = s.payLen := rfl
@[simp] theorem State.clearStatus_mbTid (v : Word) : (s.clearStatus v).mbTid = s.mbTid := rfl
@[simp] theorem State.clearStatus_mbPid (v : Word) : (s.clearStatus v).mbPid = s.mbPid := rfl
@[simp] theorem State.clearStatus_mbLen (v : Word) : (s.clearStatus v).mbLen = s.mbLen := rfl
@[simp] theorem State.clearStatus_tx (v : Word) : (s.clearStatus v).tx = s.tx := rfl
@[simp] theorem State.clearStatus_rx (v : Word) : (s.clearStatus v).rx = s.rx := rfl
@[simp] theorem State.clearStatus_rxDraw (v : Word) : (s.clearStatus v).rxDraw = s.rxDraw := rfl
@[simp] theorem State.clearStatus_pending (v : Word) : (s.clearStatus v).pending = s.pending := rfl
@[simp] theorem State.clearStatus_wire (v : Word) : (s.clearStatus v).wire = s.wire := rfl
@[simp] theorem State.clearStatus_busRdata (v : Word) : (s.clearStatus v).busRdata = s.busRdata := rfl
@[simp] theorem State.clearStatus_rstHigh (v : Word) : (s.clearStatus v).rstHigh = s.rstHigh := rfl

/-! setRx writes one byte of RX (R57, R132). -/

@[simp] theorem State.setRx_ctrl (i : Nat) (b : Byte) : (s.setRx i b).ctrl = s.ctrl := rfl
@[simp] theorem State.setRx_status (i : Nat) (b : Byte) : (s.setRx i b).status = s.status := rfl
@[simp] theorem State.setRx_irqEn (i : Nat) (b : Byte) : (s.setRx i b).irqEn = s.irqEn := rfl
@[simp] theorem State.setRx_errCode (i : Nat) (b : Byte) : (s.setRx i b).errCode = s.errCode := rfl
@[simp] theorem State.setRx_unitId (i : Nat) (b : Byte) : (s.setRx i b).unitId = s.unitId := rfl
@[simp] theorem State.setRx_func (i : Nat) (b : Byte) : (s.setRx i b).func = s.func := rfl
@[simp] theorem State.setRx_startAddr (i : Nat) (b : Byte) : (s.setRx i b).startAddr = s.startAddr := rfl
@[simp] theorem State.setRx_quantity (i : Nat) (b : Byte) : (s.setRx i b).quantity = s.quantity := rfl
@[simp] theorem State.setRx_expUnit (i : Nat) (b : Byte) : (s.setRx i b).expUnit = s.expUnit := rfl
@[simp] theorem State.setRx_crc (i : Nat) (b : Byte) : (s.setRx i b).crc = s.crc := rfl
@[simp] theorem State.setRx_txLen (i : Nat) (b : Byte) : (s.setRx i b).txLen = s.txLen := rfl
@[simp] theorem State.setRx_txPos (i : Nat) (b : Byte) : (s.setRx i b).txPos = s.txPos := rfl
@[simp] theorem State.setRx_txTimeout (i : Nat) (b : Byte) : (s.setRx i b).txTimeout = s.txTimeout := rfl
@[simp] theorem State.setRx_txElapsed (i : Nat) (b : Byte) : (s.setRx i b).txElapsed = s.txElapsed := rfl
@[simp] theorem State.setRx_rxLen (i : Nat) (b : Byte) : (s.setRx i b).rxLen = s.rxLen := rfl
@[simp] theorem State.setRx_maxRx (i : Nat) (b : Byte) : (s.setRx i b).maxRx = s.maxRx := rfl
@[simp] theorem State.setRx_rxTimeout (i : Nat) (b : Byte) : (s.setRx i b).rxTimeout = s.rxTimeout := rfl
@[simp] theorem State.setRx_gapTicks (i : Nat) (b : Byte) : (s.setRx i b).gapTicks = s.gapTicks := rfl
@[simp] theorem State.setRx_rxElapsed (i : Nat) (b : Byte) : (s.setRx i b).rxElapsed = s.rxElapsed := rfl
@[simp] theorem State.setRx_rxSilence (i : Nat) (b : Byte) : (s.setRx i b).rxSilence = s.rxSilence := rfl
@[simp] theorem State.setRx_rxEnd (i : Nat) (b : Byte) : (s.setRx i b).rxEnd = s.rxEnd := rfl
@[simp] theorem State.setRx_result (i : Nat) (b : Byte) : (s.setRx i b).result = s.result := rfl
@[simp] theorem State.setRx_respUnit (i : Nat) (b : Byte) : (s.setRx i b).respUnit = s.respUnit := rfl
@[simp] theorem State.setRx_respFc (i : Nat) (b : Byte) : (s.setRx i b).respFc = s.respFc := rfl
@[simp] theorem State.setRx_rxCrc (i : Nat) (b : Byte) : (s.setRx i b).rxCrc = s.rxCrc := rfl
@[simp] theorem State.setRx_payOff (i : Nat) (b : Byte) : (s.setRx i b).payOff = s.payOff := rfl
@[simp] theorem State.setRx_payLen (i : Nat) (b : Byte) : (s.setRx i b).payLen = s.payLen := rfl
@[simp] theorem State.setRx_mbTid (i : Nat) (b : Byte) : (s.setRx i b).mbTid = s.mbTid := rfl
@[simp] theorem State.setRx_mbPid (i : Nat) (b : Byte) : (s.setRx i b).mbPid = s.mbPid := rfl
@[simp] theorem State.setRx_mbLen (i : Nat) (b : Byte) : (s.setRx i b).mbLen = s.mbLen := rfl
@[simp] theorem State.setRx_tx (i : Nat) (b : Byte) : (s.setRx i b).tx = s.tx := rfl
@[simp] theorem State.setRx_rx (i : Nat) (b : Byte) : (s.setRx i b).rx = Memory.write s.rx i b := rfl
@[simp] theorem State.setRx_rxDraw (i : Nat) (b : Byte) : (s.setRx i b).rxDraw = s.rxDraw := rfl
@[simp] theorem State.setRx_pending (i : Nat) (b : Byte) : (s.setRx i b).pending = s.pending := rfl
@[simp] theorem State.setRx_wire (i : Nat) (b : Byte) : (s.setRx i b).wire = s.wire := rfl
@[simp] theorem State.setRx_busRdata (i : Nat) (b : Byte) : (s.setRx i b).busRdata = s.busRdata := rfl
@[simp] theorem State.setRx_rstHigh (i : Nat) (b : Byte) : (s.setRx i b).rstHigh = s.rstHigh := rfl

/-! armRx opens a receive window (R125). -/

@[simp] theorem State.armRx_ctrl : (s.armRx).ctrl = s.ctrl := rfl
@[simp] theorem State.armRx_status_txact : (s.armRx).status.txact = s.status.txact := rfl
@[simp] theorem State.armRx_status_rxact : (s.armRx).status.rxact = true := rfl
@[simp] theorem State.armRx_status_done : (s.armRx).status.done = s.status.done := rfl
@[simp] theorem State.armRx_status_txdone : (s.armRx).status.txdone = s.status.txdone := rfl
@[simp] theorem State.armRx_status_rxdone : (s.armRx).status.rxdone = s.status.rxdone := rfl
@[simp] theorem State.armRx_status_rxto : (s.armRx).status.rxto = s.status.rxto := rfl
@[simp] theorem State.armRx_status_err : (s.armRx).status.err = s.status.err := rfl
@[simp] theorem State.armRx_status_drop : (s.armRx).status.drop = s.status.drop := rfl
@[simp] theorem State.armRx_irqEn : (s.armRx).irqEn = s.irqEn := rfl
@[simp] theorem State.armRx_errCode : (s.armRx).errCode = s.errCode := rfl
@[simp] theorem State.armRx_unitId : (s.armRx).unitId = s.unitId := rfl
@[simp] theorem State.armRx_func : (s.armRx).func = s.func := rfl
@[simp] theorem State.armRx_startAddr : (s.armRx).startAddr = s.startAddr := rfl
@[simp] theorem State.armRx_quantity : (s.armRx).quantity = s.quantity := rfl
@[simp] theorem State.armRx_expUnit : (s.armRx).expUnit = s.expUnit := rfl
@[simp] theorem State.armRx_crc : (s.armRx).crc = s.crc := rfl
@[simp] theorem State.armRx_txLen : (s.armRx).txLen = s.txLen := rfl
@[simp] theorem State.armRx_txPos : (s.armRx).txPos = s.txPos := rfl
@[simp] theorem State.armRx_txTimeout : (s.armRx).txTimeout = s.txTimeout := rfl
@[simp] theorem State.armRx_txElapsed : (s.armRx).txElapsed = s.txElapsed := rfl
@[simp] theorem State.armRx_rxLen : (s.armRx).rxLen = 0 := rfl
@[simp] theorem State.armRx_maxRx : (s.armRx).maxRx = s.maxRx := rfl
@[simp] theorem State.armRx_rxTimeout : (s.armRx).rxTimeout = s.rxTimeout := rfl
@[simp] theorem State.armRx_gapTicks : (s.armRx).gapTicks = s.gapTicks := rfl
@[simp] theorem State.armRx_rxElapsed : (s.armRx).rxElapsed = 0x0000#16 := rfl
@[simp] theorem State.armRx_rxSilence : (s.armRx).rxSilence = 0x0000#16 := rfl
@[simp] theorem State.armRx_rxEnd : (s.armRx).rxEnd = .none := rfl
@[simp] theorem State.armRx_result : (s.armRx).result = .none := rfl
@[simp] theorem State.armRx_respUnit : (s.armRx).respUnit = s.respUnit := rfl
@[simp] theorem State.armRx_respFc : (s.armRx).respFc = s.respFc := rfl
@[simp] theorem State.armRx_rxCrc : (s.armRx).rxCrc = s.rxCrc := rfl
@[simp] theorem State.armRx_payOff : (s.armRx).payOff = s.payOff := rfl
@[simp] theorem State.armRx_payLen : (s.armRx).payLen = s.payLen := rfl
@[simp] theorem State.armRx_mbTid : (s.armRx).mbTid = s.mbTid := rfl
@[simp] theorem State.armRx_mbPid : (s.armRx).mbPid = s.mbPid := rfl
@[simp] theorem State.armRx_mbLen : (s.armRx).mbLen = s.mbLen := rfl
@[simp] theorem State.armRx_tx : (s.armRx).tx = s.tx := rfl
@[simp] theorem State.armRx_rx : (s.armRx).rx = s.rx := rfl
@[simp] theorem State.armRx_rxDraw : (s.armRx).rxDraw = s.rxDraw := rfl
@[simp] theorem State.armRx_pending : (s.armRx).pending = s.pending := rfl
@[simp] theorem State.armRx_wire : (s.armRx).wire = s.wire := rfl
@[simp] theorem State.armRx_busRdata : (s.armRx).busRdata = s.busRdata := rfl
@[simp] theorem State.armRx_rstHigh : (s.armRx).rstHigh = s.rstHigh := rfl

/-! endRx ends a receive window (R127). -/

@[simp] theorem State.endRx_ctrl (r : RxEnd) : (s.endRx r).ctrl = s.ctrl := rfl
@[simp] theorem State.endRx_status_txact (r : RxEnd) : (s.endRx r).status.txact = s.status.txact := rfl
@[simp] theorem State.endRx_status_rxact (r : RxEnd) : (s.endRx r).status.rxact = false := rfl
@[simp] theorem State.endRx_status_done (r : RxEnd) : (s.endRx r).status.done = (s.status.done || r != .abort) := rfl
@[simp] theorem State.endRx_status_txdone (r : RxEnd) : (s.endRx r).status.txdone = s.status.txdone := rfl
@[simp] theorem State.endRx_status_rxdone (r : RxEnd) : (s.endRx r).status.rxdone = (s.status.rxdone || r != .abort) := rfl
@[simp] theorem State.endRx_status_rxto (r : RxEnd) : (s.endRx r).status.rxto = (s.status.rxto || r == .timeout) := rfl
@[simp] theorem State.endRx_status_err (r : RxEnd) : (s.endRx r).status.err = s.status.err := rfl
@[simp] theorem State.endRx_status_drop (r : RxEnd) : (s.endRx r).status.drop = s.status.drop := rfl
@[simp] theorem State.endRx_irqEn (r : RxEnd) : (s.endRx r).irqEn = s.irqEn := rfl
@[simp] theorem State.endRx_errCode (r : RxEnd) : (s.endRx r).errCode = s.errCode := rfl
@[simp] theorem State.endRx_unitId (r : RxEnd) : (s.endRx r).unitId = s.unitId := rfl
@[simp] theorem State.endRx_func (r : RxEnd) : (s.endRx r).func = s.func := rfl
@[simp] theorem State.endRx_startAddr (r : RxEnd) : (s.endRx r).startAddr = s.startAddr := rfl
@[simp] theorem State.endRx_quantity (r : RxEnd) : (s.endRx r).quantity = s.quantity := rfl
@[simp] theorem State.endRx_expUnit (r : RxEnd) : (s.endRx r).expUnit = s.expUnit := rfl
@[simp] theorem State.endRx_crc (r : RxEnd) : (s.endRx r).crc = s.crc := rfl
@[simp] theorem State.endRx_txLen (r : RxEnd) : (s.endRx r).txLen = s.txLen := rfl
@[simp] theorem State.endRx_txPos (r : RxEnd) : (s.endRx r).txPos = s.txPos := rfl
@[simp] theorem State.endRx_txTimeout (r : RxEnd) : (s.endRx r).txTimeout = s.txTimeout := rfl
@[simp] theorem State.endRx_txElapsed (r : RxEnd) : (s.endRx r).txElapsed = s.txElapsed := rfl
@[simp] theorem State.endRx_rxLen (r : RxEnd) : (s.endRx r).rxLen = s.rxLen := rfl
@[simp] theorem State.endRx_maxRx (r : RxEnd) : (s.endRx r).maxRx = s.maxRx := rfl
@[simp] theorem State.endRx_rxTimeout (r : RxEnd) : (s.endRx r).rxTimeout = s.rxTimeout := rfl
@[simp] theorem State.endRx_gapTicks (r : RxEnd) : (s.endRx r).gapTicks = s.gapTicks := rfl
@[simp] theorem State.endRx_rxElapsed (r : RxEnd) : (s.endRx r).rxElapsed = s.rxElapsed := rfl
@[simp] theorem State.endRx_rxSilence (r : RxEnd) : (s.endRx r).rxSilence = s.rxSilence := rfl
@[simp] theorem State.endRx_rxEnd (r : RxEnd) : (s.endRx r).rxEnd = r := rfl
@[simp] theorem State.endRx_result (r : RxEnd) : (s.endRx r).result = s.result := rfl
@[simp] theorem State.endRx_respUnit (r : RxEnd) : (s.endRx r).respUnit = s.respUnit := rfl
@[simp] theorem State.endRx_respFc (r : RxEnd) : (s.endRx r).respFc = s.respFc := rfl
@[simp] theorem State.endRx_rxCrc (r : RxEnd) : (s.endRx r).rxCrc = s.rxCrc := rfl
@[simp] theorem State.endRx_payOff (r : RxEnd) : (s.endRx r).payOff = s.payOff := rfl
@[simp] theorem State.endRx_payLen (r : RxEnd) : (s.endRx r).payLen = s.payLen := rfl
@[simp] theorem State.endRx_mbTid (r : RxEnd) : (s.endRx r).mbTid = s.mbTid := rfl
@[simp] theorem State.endRx_mbPid (r : RxEnd) : (s.endRx r).mbPid = s.mbPid := rfl
@[simp] theorem State.endRx_mbLen (r : RxEnd) : (s.endRx r).mbLen = s.mbLen := rfl
@[simp] theorem State.endRx_tx (r : RxEnd) : (s.endRx r).tx = s.tx := rfl
@[simp] theorem State.endRx_rx (r : RxEnd) : (s.endRx r).rx = s.rx := rfl
@[simp] theorem State.endRx_rxDraw (r : RxEnd) : (s.endRx r).rxDraw = s.rxDraw := rfl
@[simp] theorem State.endRx_pending (r : RxEnd) : (s.endRx r).pending = s.pending := rfl
@[simp] theorem State.endRx_wire (r : RxEnd) : (s.endRx r).wire = s.wire := rfl
@[simp] theorem State.endRx_busRdata (r : RxEnd) : (s.endRx r).busRdata = s.busRdata := rfl
@[simp] theorem State.endRx_rstHigh (r : RxEnd) : (s.endRx r).rstHigh = s.rstHigh := rfl

/-! endSend ends a complete transmission (R123). -/

@[simp] theorem State.endSend_ctrl : (s.endSend).ctrl = s.ctrl := rfl
@[simp] theorem State.endSend_status_txact : (s.endSend).status.txact = false := rfl
@[simp] theorem State.endSend_status_rxact : (s.endSend).status.rxact = s.status.rxact := rfl
@[simp] theorem State.endSend_status_done : (s.endSend).status.done = true := rfl
@[simp] theorem State.endSend_status_txdone : (s.endSend).status.txdone = true := rfl
@[simp] theorem State.endSend_status_rxdone : (s.endSend).status.rxdone = s.status.rxdone := rfl
@[simp] theorem State.endSend_status_rxto : (s.endSend).status.rxto = s.status.rxto := rfl
@[simp] theorem State.endSend_status_err : (s.endSend).status.err = s.status.err := rfl
@[simp] theorem State.endSend_status_drop : (s.endSend).status.drop = s.status.drop := rfl
@[simp] theorem State.endSend_irqEn : (s.endSend).irqEn = s.irqEn := rfl
@[simp] theorem State.endSend_errCode : (s.endSend).errCode = s.errCode := rfl
@[simp] theorem State.endSend_unitId : (s.endSend).unitId = s.unitId := rfl
@[simp] theorem State.endSend_func : (s.endSend).func = s.func := rfl
@[simp] theorem State.endSend_startAddr : (s.endSend).startAddr = s.startAddr := rfl
@[simp] theorem State.endSend_quantity : (s.endSend).quantity = s.quantity := rfl
@[simp] theorem State.endSend_expUnit : (s.endSend).expUnit = s.expUnit := rfl
@[simp] theorem State.endSend_crc : (s.endSend).crc = s.crc := rfl
@[simp] theorem State.endSend_txLen : (s.endSend).txLen = s.txLen := rfl
@[simp] theorem State.endSend_txPos : (s.endSend).txPos = s.txPos := rfl
@[simp] theorem State.endSend_txTimeout : (s.endSend).txTimeout = s.txTimeout := rfl
@[simp] theorem State.endSend_txElapsed : (s.endSend).txElapsed = s.txElapsed := rfl
@[simp] theorem State.endSend_rxLen : (s.endSend).rxLen = s.rxLen := rfl
@[simp] theorem State.endSend_maxRx : (s.endSend).maxRx = s.maxRx := rfl
@[simp] theorem State.endSend_rxTimeout : (s.endSend).rxTimeout = s.rxTimeout := rfl
@[simp] theorem State.endSend_gapTicks : (s.endSend).gapTicks = s.gapTicks := rfl
@[simp] theorem State.endSend_rxElapsed : (s.endSend).rxElapsed = s.rxElapsed := rfl
@[simp] theorem State.endSend_rxSilence : (s.endSend).rxSilence = s.rxSilence := rfl
@[simp] theorem State.endSend_rxEnd : (s.endSend).rxEnd = s.rxEnd := rfl
@[simp] theorem State.endSend_result : (s.endSend).result = s.result := rfl
@[simp] theorem State.endSend_respUnit : (s.endSend).respUnit = s.respUnit := rfl
@[simp] theorem State.endSend_respFc : (s.endSend).respFc = s.respFc := rfl
@[simp] theorem State.endSend_rxCrc : (s.endSend).rxCrc = s.rxCrc := rfl
@[simp] theorem State.endSend_payOff : (s.endSend).payOff = s.payOff := rfl
@[simp] theorem State.endSend_payLen : (s.endSend).payLen = s.payLen := rfl
@[simp] theorem State.endSend_mbTid : (s.endSend).mbTid = s.mbTid := rfl
@[simp] theorem State.endSend_mbPid : (s.endSend).mbPid = s.mbPid := rfl
@[simp] theorem State.endSend_mbLen : (s.endSend).mbLen = s.mbLen := rfl
@[simp] theorem State.endSend_tx : (s.endSend).tx = s.tx := rfl
@[simp] theorem State.endSend_rx : (s.endSend).rx = s.rx := rfl
@[simp] theorem State.endSend_rxDraw : (s.endSend).rxDraw = s.rxDraw := rfl
@[simp] theorem State.endSend_pending : (s.endSend).pending = s.pending := rfl
@[simp] theorem State.endSend_wire : (s.endSend).wire = s.wire := rfl
@[simp] theorem State.endSend_busRdata : (s.endSend).busRdata = s.busRdata := rfl
@[simp] theorem State.endSend_rstHigh : (s.endSend).rstHigh = s.rstHigh := rfl

/-! emitByte puts one byte on the wire (R121). -/

@[simp] theorem State.emitByte_ctrl (h : s.txPos.val < 8) : (s.emitByte h).ctrl = s.ctrl := rfl
@[simp] theorem State.emitByte_status (h : s.txPos.val < 8) : (s.emitByte h).status = s.status := rfl
@[simp] theorem State.emitByte_irqEn (h : s.txPos.val < 8) : (s.emitByte h).irqEn = s.irqEn := rfl
@[simp] theorem State.emitByte_errCode (h : s.txPos.val < 8) : (s.emitByte h).errCode = s.errCode := rfl
@[simp] theorem State.emitByte_unitId (h : s.txPos.val < 8) : (s.emitByte h).unitId = s.unitId := rfl
@[simp] theorem State.emitByte_func (h : s.txPos.val < 8) : (s.emitByte h).func = s.func := rfl
@[simp] theorem State.emitByte_startAddr (h : s.txPos.val < 8) : (s.emitByte h).startAddr = s.startAddr := rfl
@[simp] theorem State.emitByte_quantity (h : s.txPos.val < 8) : (s.emitByte h).quantity = s.quantity := rfl
@[simp] theorem State.emitByte_expUnit (h : s.txPos.val < 8) : (s.emitByte h).expUnit = s.expUnit := rfl
@[simp] theorem State.emitByte_crc (h : s.txPos.val < 8) : (s.emitByte h).crc = s.crc := rfl
@[simp] theorem State.emitByte_txLen (h : s.txPos.val < 8) : (s.emitByte h).txLen = s.txLen := rfl
@[simp] theorem State.emitByte_txPos (h : s.txPos.val < 8) : (s.emitByte h).txPos = ⟨s.txPos.val + 1, Nat.succ_lt_succ h⟩ := rfl
@[simp] theorem State.emitByte_txTimeout (h : s.txPos.val < 8) : (s.emitByte h).txTimeout = s.txTimeout := rfl
@[simp] theorem State.emitByte_txElapsed (h : s.txPos.val < 8) : (s.emitByte h).txElapsed = s.txElapsed := rfl
@[simp] theorem State.emitByte_rxLen (h : s.txPos.val < 8) : (s.emitByte h).rxLen = s.rxLen := rfl
@[simp] theorem State.emitByte_maxRx (h : s.txPos.val < 8) : (s.emitByte h).maxRx = s.maxRx := rfl
@[simp] theorem State.emitByte_rxTimeout (h : s.txPos.val < 8) : (s.emitByte h).rxTimeout = s.rxTimeout := rfl
@[simp] theorem State.emitByte_gapTicks (h : s.txPos.val < 8) : (s.emitByte h).gapTicks = s.gapTicks := rfl
@[simp] theorem State.emitByte_rxElapsed (h : s.txPos.val < 8) : (s.emitByte h).rxElapsed = s.rxElapsed := rfl
@[simp] theorem State.emitByte_rxSilence (h : s.txPos.val < 8) : (s.emitByte h).rxSilence = s.rxSilence := rfl
@[simp] theorem State.emitByte_rxEnd (h : s.txPos.val < 8) : (s.emitByte h).rxEnd = s.rxEnd := rfl
@[simp] theorem State.emitByte_result (h : s.txPos.val < 8) : (s.emitByte h).result = s.result := rfl
@[simp] theorem State.emitByte_respUnit (h : s.txPos.val < 8) : (s.emitByte h).respUnit = s.respUnit := rfl
@[simp] theorem State.emitByte_respFc (h : s.txPos.val < 8) : (s.emitByte h).respFc = s.respFc := rfl
@[simp] theorem State.emitByte_rxCrc (h : s.txPos.val < 8) : (s.emitByte h).rxCrc = s.rxCrc := rfl
@[simp] theorem State.emitByte_payOff (h : s.txPos.val < 8) : (s.emitByte h).payOff = s.payOff := rfl
@[simp] theorem State.emitByte_payLen (h : s.txPos.val < 8) : (s.emitByte h).payLen = s.payLen := rfl
@[simp] theorem State.emitByte_mbTid (h : s.txPos.val < 8) : (s.emitByte h).mbTid = s.mbTid := rfl
@[simp] theorem State.emitByte_mbPid (h : s.txPos.val < 8) : (s.emitByte h).mbPid = s.mbPid := rfl
@[simp] theorem State.emitByte_mbLen (h : s.txPos.val < 8) : (s.emitByte h).mbLen = s.mbLen := rfl
@[simp] theorem State.emitByte_tx (h : s.txPos.val < 8) : (s.emitByte h).tx = s.tx := rfl
@[simp] theorem State.emitByte_rx (h : s.txPos.val < 8) : (s.emitByte h).rx = s.rx := rfl
@[simp] theorem State.emitByte_rxDraw (h : s.txPos.val < 8) : (s.emitByte h).rxDraw = s.rxDraw := rfl
@[simp] theorem State.emitByte_pending (h : s.txPos.val < 8) : (s.emitByte h).pending = s.pending := rfl
@[simp] theorem State.emitByte_wire (h : s.txPos.val < 8) : (s.emitByte h).wire = s.wire ++ [s.tx[s.txPos.val]] := rfl
@[simp] theorem State.emitByte_busRdata (h : s.txPos.val < 8) : (s.emitByte h).busRdata = s.busRdata := rfl
@[simp] theorem State.emitByte_rstHigh (h : s.txPos.val < 8) : (s.emitByte h).rstHigh = s.rstHigh := rfl

/-! storeByte stores one received byte (R132). -/

@[simp] theorem State.storeByte_ctrl (b : Byte) (h : s.rxLen.val < 256) : (s.storeByte b h).ctrl = s.ctrl := rfl
@[simp] theorem State.storeByte_status (b : Byte) (h : s.rxLen.val < 256) : (s.storeByte b h).status = s.status := rfl
@[simp] theorem State.storeByte_irqEn (b : Byte) (h : s.rxLen.val < 256) : (s.storeByte b h).irqEn = s.irqEn := rfl
@[simp] theorem State.storeByte_errCode (b : Byte) (h : s.rxLen.val < 256) : (s.storeByte b h).errCode = s.errCode := rfl
@[simp] theorem State.storeByte_unitId (b : Byte) (h : s.rxLen.val < 256) : (s.storeByte b h).unitId = s.unitId := rfl
@[simp] theorem State.storeByte_func (b : Byte) (h : s.rxLen.val < 256) : (s.storeByte b h).func = s.func := rfl
@[simp] theorem State.storeByte_startAddr (b : Byte) (h : s.rxLen.val < 256) : (s.storeByte b h).startAddr = s.startAddr := rfl
@[simp] theorem State.storeByte_quantity (b : Byte) (h : s.rxLen.val < 256) : (s.storeByte b h).quantity = s.quantity := rfl
@[simp] theorem State.storeByte_expUnit (b : Byte) (h : s.rxLen.val < 256) : (s.storeByte b h).expUnit = s.expUnit := rfl
@[simp] theorem State.storeByte_crc (b : Byte) (h : s.rxLen.val < 256) : (s.storeByte b h).crc = s.crc := rfl
@[simp] theorem State.storeByte_txLen (b : Byte) (h : s.rxLen.val < 256) : (s.storeByte b h).txLen = s.txLen := rfl
@[simp] theorem State.storeByte_txPos (b : Byte) (h : s.rxLen.val < 256) : (s.storeByte b h).txPos = s.txPos := rfl
@[simp] theorem State.storeByte_txTimeout (b : Byte) (h : s.rxLen.val < 256) : (s.storeByte b h).txTimeout = s.txTimeout := rfl
@[simp] theorem State.storeByte_txElapsed (b : Byte) (h : s.rxLen.val < 256) : (s.storeByte b h).txElapsed = s.txElapsed := rfl
@[simp] theorem State.storeByte_rxLen (b : Byte) (h : s.rxLen.val < 256) : (s.storeByte b h).rxLen = ⟨s.rxLen.val + 1, Nat.succ_lt_succ h⟩ := rfl
@[simp] theorem State.storeByte_maxRx (b : Byte) (h : s.rxLen.val < 256) : (s.storeByte b h).maxRx = s.maxRx := rfl
@[simp] theorem State.storeByte_rxTimeout (b : Byte) (h : s.rxLen.val < 256) : (s.storeByte b h).rxTimeout = s.rxTimeout := rfl
@[simp] theorem State.storeByte_gapTicks (b : Byte) (h : s.rxLen.val < 256) : (s.storeByte b h).gapTicks = s.gapTicks := rfl
@[simp] theorem State.storeByte_rxElapsed (b : Byte) (h : s.rxLen.val < 256) : (s.storeByte b h).rxElapsed = s.rxElapsed := rfl
@[simp] theorem State.storeByte_rxSilence (b : Byte) (h : s.rxLen.val < 256) : (s.storeByte b h).rxSilence = 0x0000#16 := rfl
@[simp] theorem State.storeByte_rxEnd (b : Byte) (h : s.rxLen.val < 256) : (s.storeByte b h).rxEnd = s.rxEnd := rfl
@[simp] theorem State.storeByte_result (b : Byte) (h : s.rxLen.val < 256) : (s.storeByte b h).result = s.result := rfl
@[simp] theorem State.storeByte_respUnit (b : Byte) (h : s.rxLen.val < 256) : (s.storeByte b h).respUnit = s.respUnit := rfl
@[simp] theorem State.storeByte_respFc (b : Byte) (h : s.rxLen.val < 256) : (s.storeByte b h).respFc = s.respFc := rfl
@[simp] theorem State.storeByte_rxCrc (b : Byte) (h : s.rxLen.val < 256) : (s.storeByte b h).rxCrc = s.rxCrc := rfl
@[simp] theorem State.storeByte_payOff (b : Byte) (h : s.rxLen.val < 256) : (s.storeByte b h).payOff = s.payOff := rfl
@[simp] theorem State.storeByte_payLen (b : Byte) (h : s.rxLen.val < 256) : (s.storeByte b h).payLen = s.payLen := rfl
@[simp] theorem State.storeByte_mbTid (b : Byte) (h : s.rxLen.val < 256) : (s.storeByte b h).mbTid = s.mbTid := rfl
@[simp] theorem State.storeByte_mbPid (b : Byte) (h : s.rxLen.val < 256) : (s.storeByte b h).mbPid = s.mbPid := rfl
@[simp] theorem State.storeByte_mbLen (b : Byte) (h : s.rxLen.val < 256) : (s.storeByte b h).mbLen = s.mbLen := rfl
@[simp] theorem State.storeByte_tx (b : Byte) (h : s.rxLen.val < 256) : (s.storeByte b h).tx = s.tx := rfl
@[simp] theorem State.storeByte_rx (b : Byte) (h : s.rxLen.val < 256) : (s.storeByte b h).rx = Memory.write s.rx s.rxLen.val b := rfl
@[simp] theorem State.storeByte_rxDraw (b : Byte) (h : s.rxLen.val < 256) : (s.storeByte b h).rxDraw = s.rxDraw := rfl
@[simp] theorem State.storeByte_pending (b : Byte) (h : s.rxLen.val < 256) : (s.storeByte b h).pending = s.pending := rfl
@[simp] theorem State.storeByte_wire (b : Byte) (h : s.rxLen.val < 256) : (s.storeByte b h).wire = s.wire := rfl
@[simp] theorem State.storeByte_busRdata (b : Byte) (h : s.rxLen.val < 256) : (s.storeByte b h).busRdata = s.busRdata := rfl
@[simp] theorem State.storeByte_rstHigh (b : Byte) (h : s.rxLen.val < 256) : (s.storeByte b h).rstHigh = s.rstHigh := rfl

/-! countTx counts a tick of a transmission (R128). -/

@[simp] theorem State.countTx_ctrl : (s.countTx).ctrl = s.ctrl := rfl
@[simp] theorem State.countTx_status : (s.countTx).status = s.status := rfl
@[simp] theorem State.countTx_irqEn : (s.countTx).irqEn = s.irqEn := rfl
@[simp] theorem State.countTx_errCode : (s.countTx).errCode = s.errCode := rfl
@[simp] theorem State.countTx_unitId : (s.countTx).unitId = s.unitId := rfl
@[simp] theorem State.countTx_func : (s.countTx).func = s.func := rfl
@[simp] theorem State.countTx_startAddr : (s.countTx).startAddr = s.startAddr := rfl
@[simp] theorem State.countTx_quantity : (s.countTx).quantity = s.quantity := rfl
@[simp] theorem State.countTx_expUnit : (s.countTx).expUnit = s.expUnit := rfl
@[simp] theorem State.countTx_crc : (s.countTx).crc = s.crc := rfl
@[simp] theorem State.countTx_txLen : (s.countTx).txLen = s.txLen := rfl
@[simp] theorem State.countTx_txPos : (s.countTx).txPos = s.txPos := rfl
@[simp] theorem State.countTx_txTimeout : (s.countTx).txTimeout = s.txTimeout := rfl
@[simp] theorem State.countTx_txElapsed : (s.countTx).txElapsed = satInc s.txElapsed := rfl
@[simp] theorem State.countTx_rxLen : (s.countTx).rxLen = s.rxLen := rfl
@[simp] theorem State.countTx_maxRx : (s.countTx).maxRx = s.maxRx := rfl
@[simp] theorem State.countTx_rxTimeout : (s.countTx).rxTimeout = s.rxTimeout := rfl
@[simp] theorem State.countTx_gapTicks : (s.countTx).gapTicks = s.gapTicks := rfl
@[simp] theorem State.countTx_rxElapsed : (s.countTx).rxElapsed = s.rxElapsed := rfl
@[simp] theorem State.countTx_rxSilence : (s.countTx).rxSilence = s.rxSilence := rfl
@[simp] theorem State.countTx_rxEnd : (s.countTx).rxEnd = s.rxEnd := rfl
@[simp] theorem State.countTx_result : (s.countTx).result = s.result := rfl
@[simp] theorem State.countTx_respUnit : (s.countTx).respUnit = s.respUnit := rfl
@[simp] theorem State.countTx_respFc : (s.countTx).respFc = s.respFc := rfl
@[simp] theorem State.countTx_rxCrc : (s.countTx).rxCrc = s.rxCrc := rfl
@[simp] theorem State.countTx_payOff : (s.countTx).payOff = s.payOff := rfl
@[simp] theorem State.countTx_payLen : (s.countTx).payLen = s.payLen := rfl
@[simp] theorem State.countTx_mbTid : (s.countTx).mbTid = s.mbTid := rfl
@[simp] theorem State.countTx_mbPid : (s.countTx).mbPid = s.mbPid := rfl
@[simp] theorem State.countTx_mbLen : (s.countTx).mbLen = s.mbLen := rfl
@[simp] theorem State.countTx_tx : (s.countTx).tx = s.tx := rfl
@[simp] theorem State.countTx_rx : (s.countTx).rx = s.rx := rfl
@[simp] theorem State.countTx_rxDraw : (s.countTx).rxDraw = s.rxDraw := rfl
@[simp] theorem State.countTx_pending : (s.countTx).pending = s.pending := rfl
@[simp] theorem State.countTx_wire : (s.countTx).wire = s.wire := rfl
@[simp] theorem State.countTx_busRdata : (s.countTx).busRdata = s.busRdata := rfl
@[simp] theorem State.countTx_rstHigh : (s.countTx).rstHigh = s.rstHigh := rfl

/-! countRx counts a tick of a receive window (R128). -/

@[simp] theorem State.countRx_ctrl : (s.countRx).ctrl = s.ctrl := rfl
@[simp] theorem State.countRx_status : (s.countRx).status = s.status := rfl
@[simp] theorem State.countRx_irqEn : (s.countRx).irqEn = s.irqEn := rfl
@[simp] theorem State.countRx_errCode : (s.countRx).errCode = s.errCode := rfl
@[simp] theorem State.countRx_unitId : (s.countRx).unitId = s.unitId := rfl
@[simp] theorem State.countRx_func : (s.countRx).func = s.func := rfl
@[simp] theorem State.countRx_startAddr : (s.countRx).startAddr = s.startAddr := rfl
@[simp] theorem State.countRx_quantity : (s.countRx).quantity = s.quantity := rfl
@[simp] theorem State.countRx_expUnit : (s.countRx).expUnit = s.expUnit := rfl
@[simp] theorem State.countRx_crc : (s.countRx).crc = s.crc := rfl
@[simp] theorem State.countRx_txLen : (s.countRx).txLen = s.txLen := rfl
@[simp] theorem State.countRx_txPos : (s.countRx).txPos = s.txPos := rfl
@[simp] theorem State.countRx_txTimeout : (s.countRx).txTimeout = s.txTimeout := rfl
@[simp] theorem State.countRx_txElapsed : (s.countRx).txElapsed = s.txElapsed := rfl
@[simp] theorem State.countRx_rxLen : (s.countRx).rxLen = s.rxLen := rfl
@[simp] theorem State.countRx_maxRx : (s.countRx).maxRx = s.maxRx := rfl
@[simp] theorem State.countRx_rxTimeout : (s.countRx).rxTimeout = s.rxTimeout := rfl
@[simp] theorem State.countRx_gapTicks : (s.countRx).gapTicks = s.gapTicks := rfl
@[simp] theorem State.countRx_rxElapsed : (s.countRx).rxElapsed = satInc s.rxElapsed := rfl
@[simp] theorem State.countRx_rxSilence : (s.countRx).rxSilence = if 0 < s.rxLen.val then satInc s.rxSilence else s.rxSilence := rfl
@[simp] theorem State.countRx_rxEnd : (s.countRx).rxEnd = s.rxEnd := rfl
@[simp] theorem State.countRx_result : (s.countRx).result = s.result := rfl
@[simp] theorem State.countRx_respUnit : (s.countRx).respUnit = s.respUnit := rfl
@[simp] theorem State.countRx_respFc : (s.countRx).respFc = s.respFc := rfl
@[simp] theorem State.countRx_rxCrc : (s.countRx).rxCrc = s.rxCrc := rfl
@[simp] theorem State.countRx_payOff : (s.countRx).payOff = s.payOff := rfl
@[simp] theorem State.countRx_payLen : (s.countRx).payLen = s.payLen := rfl
@[simp] theorem State.countRx_mbTid : (s.countRx).mbTid = s.mbTid := rfl
@[simp] theorem State.countRx_mbPid : (s.countRx).mbPid = s.mbPid := rfl
@[simp] theorem State.countRx_mbLen : (s.countRx).mbLen = s.mbLen := rfl
@[simp] theorem State.countRx_tx : (s.countRx).tx = s.tx := rfl
@[simp] theorem State.countRx_rx : (s.countRx).rx = s.rx := rfl
@[simp] theorem State.countRx_rxDraw : (s.countRx).rxDraw = s.rxDraw := rfl
@[simp] theorem State.countRx_pending : (s.countRx).pending = s.pending := rfl
@[simp] theorem State.countRx_wire : (s.countRx).wire = s.wire := rfl
@[simp] theorem State.countRx_busRdata : (s.countRx).busRdata = s.busRdata := rfl
@[simp] theorem State.countRx_rstHigh : (s.countRx).rstHigh = s.rstHigh := rfl

/-! endTxTimeout ends a transfer with the error TX_TIMEOUT (R138). -/

@[simp] theorem State.endTxTimeout_ctrl : (s.endTxTimeout).ctrl = s.ctrl := rfl
@[simp] theorem State.endTxTimeout_status_txact : (s.endTxTimeout).status.txact = false := rfl
@[simp] theorem State.endTxTimeout_status_rxact : (s.endTxTimeout).status.rxact = s.status.rxact := rfl
@[simp] theorem State.endTxTimeout_status_done : (s.endTxTimeout).status.done = true := rfl
@[simp] theorem State.endTxTimeout_status_txdone : (s.endTxTimeout).status.txdone = s.status.txdone := rfl
@[simp] theorem State.endTxTimeout_status_rxdone : (s.endTxTimeout).status.rxdone = s.status.rxdone := rfl
@[simp] theorem State.endTxTimeout_status_rxto : (s.endTxTimeout).status.rxto = s.status.rxto := rfl
@[simp] theorem State.endTxTimeout_status_err : (s.endTxTimeout).status.err = true := rfl
@[simp] theorem State.endTxTimeout_status_drop : (s.endTxTimeout).status.drop = s.status.drop := rfl
@[simp] theorem State.endTxTimeout_irqEn : (s.endTxTimeout).irqEn = s.irqEn := rfl
@[simp] theorem State.endTxTimeout_errCode : (s.endTxTimeout).errCode = .txTimeout := rfl
@[simp] theorem State.endTxTimeout_unitId : (s.endTxTimeout).unitId = s.unitId := rfl
@[simp] theorem State.endTxTimeout_func : (s.endTxTimeout).func = s.func := rfl
@[simp] theorem State.endTxTimeout_startAddr : (s.endTxTimeout).startAddr = s.startAddr := rfl
@[simp] theorem State.endTxTimeout_quantity : (s.endTxTimeout).quantity = s.quantity := rfl
@[simp] theorem State.endTxTimeout_expUnit : (s.endTxTimeout).expUnit = s.expUnit := rfl
@[simp] theorem State.endTxTimeout_crc : (s.endTxTimeout).crc = s.crc := rfl
@[simp] theorem State.endTxTimeout_txLen : (s.endTxTimeout).txLen = s.txLen := rfl
@[simp] theorem State.endTxTimeout_txPos : (s.endTxTimeout).txPos = s.txPos := rfl
@[simp] theorem State.endTxTimeout_txTimeout : (s.endTxTimeout).txTimeout = s.txTimeout := rfl
@[simp] theorem State.endTxTimeout_txElapsed : (s.endTxTimeout).txElapsed = s.txElapsed := rfl
@[simp] theorem State.endTxTimeout_rxLen : (s.endTxTimeout).rxLen = s.rxLen := rfl
@[simp] theorem State.endTxTimeout_maxRx : (s.endTxTimeout).maxRx = s.maxRx := rfl
@[simp] theorem State.endTxTimeout_rxTimeout : (s.endTxTimeout).rxTimeout = s.rxTimeout := rfl
@[simp] theorem State.endTxTimeout_gapTicks : (s.endTxTimeout).gapTicks = s.gapTicks := rfl
@[simp] theorem State.endTxTimeout_rxElapsed : (s.endTxTimeout).rxElapsed = s.rxElapsed := rfl
@[simp] theorem State.endTxTimeout_rxSilence : (s.endTxTimeout).rxSilence = s.rxSilence := rfl
@[simp] theorem State.endTxTimeout_rxEnd : (s.endTxTimeout).rxEnd = s.rxEnd := rfl
@[simp] theorem State.endTxTimeout_result : (s.endTxTimeout).result = s.result := rfl
@[simp] theorem State.endTxTimeout_respUnit : (s.endTxTimeout).respUnit = s.respUnit := rfl
@[simp] theorem State.endTxTimeout_respFc : (s.endTxTimeout).respFc = s.respFc := rfl
@[simp] theorem State.endTxTimeout_rxCrc : (s.endTxTimeout).rxCrc = s.rxCrc := rfl
@[simp] theorem State.endTxTimeout_payOff : (s.endTxTimeout).payOff = s.payOff := rfl
@[simp] theorem State.endTxTimeout_payLen : (s.endTxTimeout).payLen = s.payLen := rfl
@[simp] theorem State.endTxTimeout_mbTid : (s.endTxTimeout).mbTid = s.mbTid := rfl
@[simp] theorem State.endTxTimeout_mbPid : (s.endTxTimeout).mbPid = s.mbPid := rfl
@[simp] theorem State.endTxTimeout_mbLen : (s.endTxTimeout).mbLen = s.mbLen := rfl
@[simp] theorem State.endTxTimeout_tx : (s.endTxTimeout).tx = s.tx := rfl
@[simp] theorem State.endTxTimeout_rx : (s.endTxTimeout).rx = s.rx := rfl
@[simp] theorem State.endTxTimeout_rxDraw : (s.endTxTimeout).rxDraw = s.rxDraw := rfl
@[simp] theorem State.endTxTimeout_pending : (s.endTxTimeout).pending = s.pending := rfl
@[simp] theorem State.endTxTimeout_wire : (s.endTxTimeout).wire = s.wire := rfl
@[simp] theorem State.endTxTimeout_busRdata : (s.endTxTimeout).busRdata = s.busRdata := rfl
@[simp] theorem State.endTxTimeout_rstHigh : (s.endTxTimeout).rstHigh = s.rstHigh := rfl

/-! setResult writes the outcome of a validation (R46, R50, R51). -/

@[simp] theorem State.setResult_ctrl (v : Verdict) (off : BitVec 9) (n : Nat) : (s.setResult v off n).ctrl = s.ctrl := rfl
@[simp] theorem State.setResult_status (v : Verdict) (off : BitVec 9) (n : Nat) : (s.setResult v off n).status = s.status := rfl
@[simp] theorem State.setResult_irqEn (v : Verdict) (off : BitVec 9) (n : Nat) : (s.setResult v off n).irqEn = s.irqEn := rfl
@[simp] theorem State.setResult_errCode (v : Verdict) (off : BitVec 9) (n : Nat) : (s.setResult v off n).errCode = s.errCode := rfl
@[simp] theorem State.setResult_unitId (v : Verdict) (off : BitVec 9) (n : Nat) : (s.setResult v off n).unitId = s.unitId := rfl
@[simp] theorem State.setResult_func (v : Verdict) (off : BitVec 9) (n : Nat) : (s.setResult v off n).func = s.func := rfl
@[simp] theorem State.setResult_startAddr (v : Verdict) (off : BitVec 9) (n : Nat) : (s.setResult v off n).startAddr = s.startAddr := rfl
@[simp] theorem State.setResult_quantity (v : Verdict) (off : BitVec 9) (n : Nat) : (s.setResult v off n).quantity = s.quantity := rfl
@[simp] theorem State.setResult_expUnit (v : Verdict) (off : BitVec 9) (n : Nat) : (s.setResult v off n).expUnit = s.expUnit := rfl
@[simp] theorem State.setResult_crc (v : Verdict) (off : BitVec 9) (n : Nat) : (s.setResult v off n).crc = s.crc := rfl
@[simp] theorem State.setResult_txLen (v : Verdict) (off : BitVec 9) (n : Nat) : (s.setResult v off n).txLen = s.txLen := rfl
@[simp] theorem State.setResult_txPos (v : Verdict) (off : BitVec 9) (n : Nat) : (s.setResult v off n).txPos = s.txPos := rfl
@[simp] theorem State.setResult_txTimeout (v : Verdict) (off : BitVec 9) (n : Nat) : (s.setResult v off n).txTimeout = s.txTimeout := rfl
@[simp] theorem State.setResult_txElapsed (v : Verdict) (off : BitVec 9) (n : Nat) : (s.setResult v off n).txElapsed = s.txElapsed := rfl
@[simp] theorem State.setResult_rxLen (v : Verdict) (off : BitVec 9) (n : Nat) : (s.setResult v off n).rxLen = s.rxLen := rfl
@[simp] theorem State.setResult_maxRx (v : Verdict) (off : BitVec 9) (n : Nat) : (s.setResult v off n).maxRx = s.maxRx := rfl
@[simp] theorem State.setResult_rxTimeout (v : Verdict) (off : BitVec 9) (n : Nat) : (s.setResult v off n).rxTimeout = s.rxTimeout := rfl
@[simp] theorem State.setResult_gapTicks (v : Verdict) (off : BitVec 9) (n : Nat) : (s.setResult v off n).gapTicks = s.gapTicks := rfl
@[simp] theorem State.setResult_rxElapsed (v : Verdict) (off : BitVec 9) (n : Nat) : (s.setResult v off n).rxElapsed = s.rxElapsed := rfl
@[simp] theorem State.setResult_rxSilence (v : Verdict) (off : BitVec 9) (n : Nat) : (s.setResult v off n).rxSilence = s.rxSilence := rfl
@[simp] theorem State.setResult_rxEnd (v : Verdict) (off : BitVec 9) (n : Nat) : (s.setResult v off n).rxEnd = s.rxEnd := rfl
@[simp] theorem State.setResult_result (v : Verdict) (off : BitVec 9) (n : Nat) : (s.setResult v off n).result = v := rfl
@[simp] theorem State.setResult_respUnit (v : Verdict) (off : BitVec 9) (n : Nat) : (s.setResult v off n).respUnit = s.respUnit := rfl
@[simp] theorem State.setResult_respFc (v : Verdict) (off : BitVec 9) (n : Nat) : (s.setResult v off n).respFc = s.respFc := rfl
@[simp] theorem State.setResult_rxCrc (v : Verdict) (off : BitVec 9) (n : Nat) : (s.setResult v off n).rxCrc = s.rxCrc := rfl
@[simp] theorem State.setResult_payOff (v : Verdict) (off : BitVec 9) (n : Nat) : (s.setResult v off n).payOff = if v = .ok then off else 0#9 := rfl
@[simp] theorem State.setResult_payLen (v : Verdict) (off : BitVec 9) (n : Nat) : (s.setResult v off n).payLen = if v = .ok then BitVec.ofNat 9 n else 0#9 := rfl
@[simp] theorem State.setResult_mbTid (v : Verdict) (off : BitVec 9) (n : Nat) : (s.setResult v off n).mbTid = s.mbTid := rfl
@[simp] theorem State.setResult_mbPid (v : Verdict) (off : BitVec 9) (n : Nat) : (s.setResult v off n).mbPid = s.mbPid := rfl
@[simp] theorem State.setResult_mbLen (v : Verdict) (off : BitVec 9) (n : Nat) : (s.setResult v off n).mbLen = s.mbLen := rfl
@[simp] theorem State.setResult_tx (v : Verdict) (off : BitVec 9) (n : Nat) : (s.setResult v off n).tx = s.tx := rfl
@[simp] theorem State.setResult_rx (v : Verdict) (off : BitVec 9) (n : Nat) : (s.setResult v off n).rx = s.rx := rfl
@[simp] theorem State.setResult_rxDraw (v : Verdict) (off : BitVec 9) (n : Nat) : (s.setResult v off n).rxDraw = s.rxDraw := rfl
@[simp] theorem State.setResult_pending (v : Verdict) (off : BitVec 9) (n : Nat) : (s.setResult v off n).pending = s.pending := rfl
@[simp] theorem State.setResult_wire (v : Verdict) (off : BitVec 9) (n : Nat) : (s.setResult v off n).wire = s.wire := rfl
@[simp] theorem State.setResult_busRdata (v : Verdict) (off : BitVec 9) (n : Nat) : (s.setResult v off n).busRdata = s.busRdata := rfl
@[simp] theorem State.setResult_rstHigh (v : Verdict) (off : BitVec 9) (n : Nat) : (s.setResult v off n).rstHigh = s.rstHigh := rfl

/-! softReset restores every reset value but RX (R158, R182). -/

@[simp] theorem State.softReset_ctrl : (s.softReset).ctrl = State.reset.ctrl := rfl
@[simp] theorem State.softReset_status : (s.softReset).status = State.reset.status := rfl
@[simp] theorem State.softReset_irqEn : (s.softReset).irqEn = State.reset.irqEn := rfl
@[simp] theorem State.softReset_errCode : (s.softReset).errCode = State.reset.errCode := rfl
@[simp] theorem State.softReset_unitId : (s.softReset).unitId = State.reset.unitId := rfl
@[simp] theorem State.softReset_func : (s.softReset).func = State.reset.func := rfl
@[simp] theorem State.softReset_startAddr : (s.softReset).startAddr = State.reset.startAddr := rfl
@[simp] theorem State.softReset_quantity : (s.softReset).quantity = State.reset.quantity := rfl
@[simp] theorem State.softReset_expUnit : (s.softReset).expUnit = State.reset.expUnit := rfl
@[simp] theorem State.softReset_crc : (s.softReset).crc = State.reset.crc := rfl
@[simp] theorem State.softReset_txLen : (s.softReset).txLen = State.reset.txLen := rfl
@[simp] theorem State.softReset_txPos : (s.softReset).txPos = State.reset.txPos := rfl
@[simp] theorem State.softReset_txTimeout : (s.softReset).txTimeout = State.reset.txTimeout := rfl
@[simp] theorem State.softReset_txElapsed : (s.softReset).txElapsed = State.reset.txElapsed := rfl
@[simp] theorem State.softReset_rxLen : (s.softReset).rxLen = State.reset.rxLen := rfl
@[simp] theorem State.softReset_maxRx : (s.softReset).maxRx = State.reset.maxRx := rfl
@[simp] theorem State.softReset_rxTimeout : (s.softReset).rxTimeout = State.reset.rxTimeout := rfl
@[simp] theorem State.softReset_gapTicks : (s.softReset).gapTicks = State.reset.gapTicks := rfl
@[simp] theorem State.softReset_rxElapsed : (s.softReset).rxElapsed = State.reset.rxElapsed := rfl
@[simp] theorem State.softReset_rxSilence : (s.softReset).rxSilence = State.reset.rxSilence := rfl
@[simp] theorem State.softReset_rxEnd : (s.softReset).rxEnd = State.reset.rxEnd := rfl
@[simp] theorem State.softReset_result : (s.softReset).result = State.reset.result := rfl
@[simp] theorem State.softReset_respUnit : (s.softReset).respUnit = State.reset.respUnit := rfl
@[simp] theorem State.softReset_respFc : (s.softReset).respFc = State.reset.respFc := rfl
@[simp] theorem State.softReset_rxCrc : (s.softReset).rxCrc = State.reset.rxCrc := rfl
@[simp] theorem State.softReset_payOff : (s.softReset).payOff = State.reset.payOff := rfl
@[simp] theorem State.softReset_payLen : (s.softReset).payLen = State.reset.payLen := rfl
@[simp] theorem State.softReset_mbTid : (s.softReset).mbTid = State.reset.mbTid := rfl
@[simp] theorem State.softReset_mbPid : (s.softReset).mbPid = State.reset.mbPid := rfl
@[simp] theorem State.softReset_mbLen : (s.softReset).mbLen = State.reset.mbLen := rfl
@[simp] theorem State.softReset_tx : (s.softReset).tx = State.reset.tx := rfl
@[simp] theorem State.softReset_rx : (s.softReset).rx = s.rx := rfl
@[simp] theorem State.softReset_rxDraw : (s.softReset).rxDraw = s.rxDraw := rfl
@[simp] theorem State.softReset_pending : (s.softReset).pending = s.pending := rfl
@[simp] theorem State.softReset_wire : (s.softReset).wire = s.wire := rfl
@[simp] theorem State.softReset_busRdata : (s.softReset).busRdata = s.busRdata := rfl
@[simp] theorem State.softReset_rstHigh : (s.softReset).rstHigh = s.rstHigh := rfl

/-! hardReset restores every reset value and draws RX anew (R181, R183). -/

@[simp] theorem State.hardReset_ctrl : (s.hardReset).ctrl = State.reset.ctrl := rfl
@[simp] theorem State.hardReset_status : (s.hardReset).status = State.reset.status := rfl
@[simp] theorem State.hardReset_irqEn : (s.hardReset).irqEn = State.reset.irqEn := rfl
@[simp] theorem State.hardReset_errCode : (s.hardReset).errCode = State.reset.errCode := rfl
@[simp] theorem State.hardReset_unitId : (s.hardReset).unitId = State.reset.unitId := rfl
@[simp] theorem State.hardReset_func : (s.hardReset).func = State.reset.func := rfl
@[simp] theorem State.hardReset_startAddr : (s.hardReset).startAddr = State.reset.startAddr := rfl
@[simp] theorem State.hardReset_quantity : (s.hardReset).quantity = State.reset.quantity := rfl
@[simp] theorem State.hardReset_expUnit : (s.hardReset).expUnit = State.reset.expUnit := rfl
@[simp] theorem State.hardReset_crc : (s.hardReset).crc = State.reset.crc := rfl
@[simp] theorem State.hardReset_txLen : (s.hardReset).txLen = State.reset.txLen := rfl
@[simp] theorem State.hardReset_txPos : (s.hardReset).txPos = State.reset.txPos := rfl
@[simp] theorem State.hardReset_txTimeout : (s.hardReset).txTimeout = State.reset.txTimeout := rfl
@[simp] theorem State.hardReset_txElapsed : (s.hardReset).txElapsed = State.reset.txElapsed := rfl
@[simp] theorem State.hardReset_rxLen : (s.hardReset).rxLen = State.reset.rxLen := rfl
@[simp] theorem State.hardReset_maxRx : (s.hardReset).maxRx = State.reset.maxRx := rfl
@[simp] theorem State.hardReset_rxTimeout : (s.hardReset).rxTimeout = State.reset.rxTimeout := rfl
@[simp] theorem State.hardReset_gapTicks : (s.hardReset).gapTicks = State.reset.gapTicks := rfl
@[simp] theorem State.hardReset_rxElapsed : (s.hardReset).rxElapsed = State.reset.rxElapsed := rfl
@[simp] theorem State.hardReset_rxSilence : (s.hardReset).rxSilence = State.reset.rxSilence := rfl
@[simp] theorem State.hardReset_rxEnd : (s.hardReset).rxEnd = State.reset.rxEnd := rfl
@[simp] theorem State.hardReset_result : (s.hardReset).result = State.reset.result := rfl
@[simp] theorem State.hardReset_respUnit : (s.hardReset).respUnit = State.reset.respUnit := rfl
@[simp] theorem State.hardReset_respFc : (s.hardReset).respFc = State.reset.respFc := rfl
@[simp] theorem State.hardReset_rxCrc : (s.hardReset).rxCrc = State.reset.rxCrc := rfl
@[simp] theorem State.hardReset_payOff : (s.hardReset).payOff = State.reset.payOff := rfl
@[simp] theorem State.hardReset_payLen : (s.hardReset).payLen = State.reset.payLen := rfl
@[simp] theorem State.hardReset_mbTid : (s.hardReset).mbTid = State.reset.mbTid := rfl
@[simp] theorem State.hardReset_mbPid : (s.hardReset).mbPid = State.reset.mbPid := rfl
@[simp] theorem State.hardReset_mbLen : (s.hardReset).mbLen = State.reset.mbLen := rfl
@[simp] theorem State.hardReset_tx : (s.hardReset).tx = State.reset.tx := rfl
@[simp] theorem State.hardReset_rx : (s.hardReset).rx = State.reset.rx := rfl
@[simp] theorem State.hardReset_rxDraw : (s.hardReset).rxDraw = s.rxDraw + 1 := rfl
@[simp] theorem State.hardReset_pending : (s.hardReset).pending = s.pending := rfl
@[simp] theorem State.hardReset_wire : (s.hardReset).wire = s.wire := rfl
@[simp] theorem State.hardReset_busRdata : (s.hardReset).busRdata = State.reset.busRdata := rfl
@[simp] theorem State.hardReset_rstHigh : (s.hardReset).rstHigh = false := rfl

/-! abortTransfer drops TXACT and RXACT, and an open window ends with ABORT (R160). -/

/-- abort_transfer field by field. -/
theorem State.abortTransfer_eq :
    s.abortTransfer = { s with
      rxEnd := if s.status.rxact then .abort else s.rxEnd
      status := { s.status with txact := false, rxact := false } } := by
  rcases s with ⟨_, ⟨tx, rx, _, _, _, _, _, _⟩, _⟩
  cases tx <;> cases rx <;> simp [State.abortTransfer, State.endRx]

@[simp] theorem State.abortTransfer_ctrl : s.abortTransfer.ctrl = s.ctrl := by
  rw [State.abortTransfer_eq]
@[simp] theorem State.abortTransfer_status_txact : s.abortTransfer.status.txact = false := by
  rw [State.abortTransfer_eq]
@[simp] theorem State.abortTransfer_status_rxact : s.abortTransfer.status.rxact = false := by
  rw [State.abortTransfer_eq]
@[simp] theorem State.abortTransfer_status_done : s.abortTransfer.status.done = s.status.done := by
  rw [State.abortTransfer_eq]
@[simp] theorem State.abortTransfer_status_txdone : s.abortTransfer.status.txdone = s.status.txdone := by
  rw [State.abortTransfer_eq]
@[simp] theorem State.abortTransfer_status_rxdone : s.abortTransfer.status.rxdone = s.status.rxdone := by
  rw [State.abortTransfer_eq]
@[simp] theorem State.abortTransfer_status_rxto : s.abortTransfer.status.rxto = s.status.rxto := by
  rw [State.abortTransfer_eq]
@[simp] theorem State.abortTransfer_status_err : s.abortTransfer.status.err = s.status.err := by
  rw [State.abortTransfer_eq]
@[simp] theorem State.abortTransfer_status_drop : s.abortTransfer.status.drop = s.status.drop := by
  rw [State.abortTransfer_eq]
@[simp] theorem State.abortTransfer_irqEn : s.abortTransfer.irqEn = s.irqEn := by
  rw [State.abortTransfer_eq]
@[simp] theorem State.abortTransfer_errCode : s.abortTransfer.errCode = s.errCode := by
  rw [State.abortTransfer_eq]
@[simp] theorem State.abortTransfer_unitId : s.abortTransfer.unitId = s.unitId := by
  rw [State.abortTransfer_eq]
@[simp] theorem State.abortTransfer_func : s.abortTransfer.func = s.func := by
  rw [State.abortTransfer_eq]
@[simp] theorem State.abortTransfer_startAddr : s.abortTransfer.startAddr = s.startAddr := by
  rw [State.abortTransfer_eq]
@[simp] theorem State.abortTransfer_quantity : s.abortTransfer.quantity = s.quantity := by
  rw [State.abortTransfer_eq]
@[simp] theorem State.abortTransfer_expUnit : s.abortTransfer.expUnit = s.expUnit := by
  rw [State.abortTransfer_eq]
@[simp] theorem State.abortTransfer_crc : s.abortTransfer.crc = s.crc := by
  rw [State.abortTransfer_eq]
@[simp] theorem State.abortTransfer_txLen : s.abortTransfer.txLen = s.txLen := by
  rw [State.abortTransfer_eq]
@[simp] theorem State.abortTransfer_txPos : s.abortTransfer.txPos = s.txPos := by
  rw [State.abortTransfer_eq]
@[simp] theorem State.abortTransfer_txTimeout : s.abortTransfer.txTimeout = s.txTimeout := by
  rw [State.abortTransfer_eq]
@[simp] theorem State.abortTransfer_txElapsed : s.abortTransfer.txElapsed = s.txElapsed := by
  rw [State.abortTransfer_eq]
@[simp] theorem State.abortTransfer_rxLen : s.abortTransfer.rxLen = s.rxLen := by
  rw [State.abortTransfer_eq]
@[simp] theorem State.abortTransfer_maxRx : s.abortTransfer.maxRx = s.maxRx := by
  rw [State.abortTransfer_eq]
@[simp] theorem State.abortTransfer_rxTimeout : s.abortTransfer.rxTimeout = s.rxTimeout := by
  rw [State.abortTransfer_eq]
@[simp] theorem State.abortTransfer_gapTicks : s.abortTransfer.gapTicks = s.gapTicks := by
  rw [State.abortTransfer_eq]
@[simp] theorem State.abortTransfer_rxElapsed : s.abortTransfer.rxElapsed = s.rxElapsed := by
  rw [State.abortTransfer_eq]
@[simp] theorem State.abortTransfer_rxSilence : s.abortTransfer.rxSilence = s.rxSilence := by
  rw [State.abortTransfer_eq]
@[simp] theorem State.abortTransfer_rxEnd :
    s.abortTransfer.rxEnd = if s.status.rxact then .abort else s.rxEnd := by
  rw [State.abortTransfer_eq]
@[simp] theorem State.abortTransfer_result : s.abortTransfer.result = s.result := by
  rw [State.abortTransfer_eq]
@[simp] theorem State.abortTransfer_respUnit : s.abortTransfer.respUnit = s.respUnit := by
  rw [State.abortTransfer_eq]
@[simp] theorem State.abortTransfer_respFc : s.abortTransfer.respFc = s.respFc := by
  rw [State.abortTransfer_eq]
@[simp] theorem State.abortTransfer_rxCrc : s.abortTransfer.rxCrc = s.rxCrc := by
  rw [State.abortTransfer_eq]
@[simp] theorem State.abortTransfer_payOff : s.abortTransfer.payOff = s.payOff := by
  rw [State.abortTransfer_eq]
@[simp] theorem State.abortTransfer_payLen : s.abortTransfer.payLen = s.payLen := by
  rw [State.abortTransfer_eq]
@[simp] theorem State.abortTransfer_mbTid : s.abortTransfer.mbTid = s.mbTid := by
  rw [State.abortTransfer_eq]
@[simp] theorem State.abortTransfer_mbPid : s.abortTransfer.mbPid = s.mbPid := by
  rw [State.abortTransfer_eq]
@[simp] theorem State.abortTransfer_mbLen : s.abortTransfer.mbLen = s.mbLen := by
  rw [State.abortTransfer_eq]
@[simp] theorem State.abortTransfer_tx : s.abortTransfer.tx = s.tx := by
  rw [State.abortTransfer_eq]
@[simp] theorem State.abortTransfer_rx : s.abortTransfer.rx = s.rx := by
  rw [State.abortTransfer_eq]
@[simp] theorem State.abortTransfer_rxDraw : s.abortTransfer.rxDraw = s.rxDraw := by
  rw [State.abortTransfer_eq]
@[simp] theorem State.abortTransfer_pending : s.abortTransfer.pending = s.pending := by
  rw [State.abortTransfer_eq]
@[simp] theorem State.abortTransfer_wire : s.abortTransfer.wire = s.wire := by
  rw [State.abortTransfer_eq]
@[simp] theorem State.abortTransfer_busRdata : s.abortTransfer.busRdata = s.busRdata := by
  rw [State.abortTransfer_eq]
@[simp] theorem State.abortTransfer_rstHigh : s.abortTransfer.rstHigh = s.rstHigh := by
  rw [State.abortTransfer_eq]

end Sys2Proof.Machine
end

