-- ==== Sys2Proof/Laws/Bits.lean ====
section
/-! SUPPORT. The laws of byte order, saturation, register codes and the STATUS word. -/

namespace Sys2Proof.Machine

/-- The two bytes of a word, joined high byte first, are the word. -/
@[simp] theorem catBytes_hi_lo (v : Word) : catBytes (hiByte v) (loByte v) = v := by
  apply BitVec.eq_of_getLsbD_eq
  intro i hi
  simp only [catBytes, hiByte, loByte, BitVec.getLsbD_append, BitVec.getLsbD_extractLsb']
  by_cases h : i < 8
  · simp [h]
  · simp only [h, if_false]
    have : i - 8 < 8 := by omega
    simp [this]
    congr 1; omega

/-- The high byte of two joined bytes. -/
@[simp] theorem hiByte_catBytes (a b : Byte) : hiByte (catBytes a b) = a := by
  apply BitVec.eq_of_getLsbD_eq
  intro i hi
  simp only [hiByte, catBytes, BitVec.getLsbD_extractLsb', BitVec.getLsbD_append]
  simp [hi]

/-- The low byte of two joined bytes. -/
@[simp] theorem loByte_catBytes (a b : Byte) : loByte (catBytes a b) = b := by
  apply BitVec.eq_of_getLsbD_eq
  intro i hi
  simp only [loByte, catBytes, BitVec.getLsbD_extractLsb', BitVec.getLsbD_append]
  simp [hi]

/-- The low byte of a zero-extended byte. -/
@[simp] theorem loByte_setWidth (b : Byte) : loByte (b.setWidth 16) = b := by
  apply BitVec.eq_of_getLsbD_eq
  intro i hi
  simp only [loByte, BitVec.getLsbD_extractLsb', BitVec.getLsbD_setWidth]
  simp [hi]; omega

/-- `satInc` counts up to 0xFFFF and stays there. -/
theorem satInc_toNat (v : Word) : (satInc v).toNat = min (v.toNat + 1) 65535 := by
  have hv := v.isLt
  unfold satInc
  split
  · next h => subst h; decide
  · next h =>
    have : v.toNat ≠ 65535 := fun hc => h (BitVec.eq_of_toNat_eq (by simpa using hc))
    rw [BitVec.toNat_add]
    have h1 : (1#16).toNat = 1 := rfl
    omega

/-- Writing a legal BAUD code stores the rate with that code. -/
@[simp] theorem Baud.written_code (b old : Baud) : Baud.written b.code old = b := by
  cases b <;> rfl

/-- The bits of a flag word. -/
theorem getLsbD_bitIf (b : Bool) (k i : Nat) : (bitIf b k).getLsbD i = (b && decide (i < 16) && decide (i = k)) := by
  cases b
  · simp [bitIf]
  · simp only [bitIf, if_true, BitVec.getLsbD_shiftLeft, BitVec.getLsbD_one, Bool.true_and]
    by_cases h : i < 16 <;> by_cases hk : i < k <;> by_cases he : i = k <;> simp [h, hk, he] <;> omega

/-- The bits of STATUS, one by one (R24). -/
theorem State.getLsbD_statusWord (s : State) (i : Nat) :
    s.statusWord.getLsbD i =
      ((s.busy && decide (i = 0)) || (s.status.txact && decide (i = 1)) || (s.status.rxact && decide (i = 2)) ||
       (s.status.done && decide (i = 3)) || (s.status.txdone && decide (i = 4)) ||
       (s.status.rxdone && decide (i = 5)) || (s.status.rxto && decide (i = 6)) ||
       (s.status.err && decide (i = 7)) || (s.status.drop && decide (i = 8))) := by
  simp only [State.statusWord, BitVec.getLsbD_or, getLsbD_bitIf]
  by_cases h : i < 16
  · simp [h]
  · have : ∀ k, k < 16 → i ≠ k := by intro k hk; omega
    simp [h, this]

/-- The CTRL word, field by field (R23). -/
theorem Ctrl.word_eq (c : Ctrl) : c.word = 0#11 ++ c.baud.code ++ BitVec.ofBool c.autorx ++ BitVec.ofBool c.en := by
  obtain ⟨en, autorx, baud⟩ := c
  cases en <;> cases autorx <;> cases baud <;> rfl

/-- `tx_data` is the byte due while TXACT = 1 (R19). -/
theorem State.txData_of_txact {s : State} (h : s.status.txact = true) (hp : s.txPos.val < 8) :
    s.txData = s.tx[s.txPos.val] := by
  simp [State.txData, h, hp]

/-- `tx_data` is 0x00 while TXACT = 0 (R19). -/
theorem State.txData_of_not_txact {s : State} (h : s.status.txact = false) : s.txData = 0x00#8 := by
  simp [State.txData, h]

end Sys2Proof.Machine
end

