-- ==== Sys2Proof/Laws/Crc.lean ====
section
/-! SUPPORT. The small laws of the CRC loop: one byte at a time, over a joined sequence, and of no byte. -/

namespace Sys2Proof.Machine

/-- No byte leaves the register (R105). -/
@[simp] theorem crcFrom_nil (c : Word) : crcFrom c [] = c := rfl

/-- One more byte at the front (R105). -/
@[simp] theorem crcFrom_cons (c : Word) (b : Byte) (s : List Byte) :
    crcFrom c (b :: s) = crcFrom (crcStep c b) s := rfl

/-- The loop over a joined sequence goes on from where the first part left it (R113). -/
theorem crcFrom_append (c : Word) (s t : List Byte) : crcFrom c (s ++ t) = crcFrom (crcFrom c s) t := by
  simp [crcFrom]

/-- crc16([]) = 0xFFFF (R110). -/
@[simp] theorem crc16_nil : crc16 [] = 0xFFFF#16 := rfl

/-- One pass more, at the end (R106). -/
theorem crcBits_succ' (n : Nat) (c : Word) : crcBits (n + 1) c = crcBit (crcBits n c) := by
  induction n generalizing c with
  | zero => rfl
  | succ n ih => exact ih (crcBit c)

end Sys2Proof.Machine
end

