-- ==== Sys2Proof/Laws/Decode.lean ====
section
/-! SUPPORT. The laws of the slot map and of the decoder: what each slot names, and what a write of it decodes to. -/

namespace Sys2Proof.Machine

/-- The register map and the slot numbers agree (R22). -/
@[simp] theorem slotOf_reg (r : Reg) : slotOf r.slot = .reg r := by cases r <;> rfl

/-- RXBUF[i] stands at 0x100 + i (R57). -/
theorem slotOf_rxbuf (i : Fin 256) : slotOf (rxbufSlot i.val) = .rxbuf i := by
  have hi := i.isLt
  have ht : (rxbufSlot i.val).toNat = 0x100 + i.val := by
    simp only [rxbufSlot, BitVec.toNat_ofNat]; omega
  unfold slotOf
  simp only [ht, Nat.le_add_right, if_true, Nat.add_sub_cancel_left, Fin.eta]

/-- TXBUF[i] stands at 0x040 + i (R56). -/
theorem slotOf_txbuf (i : Fin 8) : slotOf (txbufSlot i.val) = .txbuf i := by
  revert i; decide

/-- A write to CMD is a command (R87). -/
theorem decode_cmd (v : Word) : decode ⟨0x003#9, v⟩ = .instr (decodeCmd v) := rfl

/-- A write to CTRL is SOFT_RESET or a configuration write (R90). -/
theorem decode_ctrl (v : Word) : decode ⟨0x000#9, v⟩ = .instr (decodeCtrl v) := rfl

/-- A write to CRC_DATA is CRC_UPDATE (R89). -/
theorem decode_crcData (v : Word) : decode ⟨0x00B#9, v⟩ = .instr (.crcUpdate (loByte v)) := rfl

/-- A write to CRC is the CRC write (R109). -/
theorem decode_crc (v : Word) : decode ⟨0x00A#9, v⟩ = .instr (.crcWrite v) := rfl

/-- A write to RXBUF[i] is plain, of the value's low byte (R57, R69). -/
theorem decode_rxbuf (i : Fin 256) (v : Word) :
    decode ⟨rxbufSlot i.val, v⟩ = .plain (.rxbuf i (loByte v)) := by
  simp [decode, slotOf_rxbuf]

end Sys2Proof.Machine
end

