-- ==== Sys2Proof/Laws/Memory.lean ====
section
/-! SUPPORT. The laws of the receive buffer: a read after a write, and that a write keeps the canonical form. -/

namespace Sys2Proof.Machine

/-- A read of the index just written gives the byte written. -/
@[simp] theorem Memory.read_write_same (m : Memory) (a : Nat) (b : Byte) :
    Memory.read (Memory.write m a b) a = some b := by
  induction m with
  | nil => simp [Memory.write, Memory.read]
  | cons e m ih =>
    obtain ⟨k, c⟩ := e
    unfold Memory.write
    split
    · simp [Memory.read]
    · split
      · simp [Memory.read]
      · next h => simp [Memory.read, h, ih]

/-- A write leaves every other index alone. -/
theorem Memory.read_write_other (m : Memory) {a i : Nat} (b : Byte) (h : i ≠ a) :
    Memory.read (Memory.write m a b) i = Memory.read m i := by
  induction m with
  | nil => simp [Memory.write, Memory.read, h]
  | cons e m ih =>
    obtain ⟨k, c⟩ := e
    unfold Memory.write
    split
    · simp [Memory.read, h]
    · split
      · next hk => subst hk; simp [Memory.read, h]
      · simp only [Memory.read, ih]

/-- A lower bound may be lowered. -/
theorem Memory.risesAbove_mono {m : Memory} {lo lo' : Nat} (h : lo' ≤ lo) :
    Memory.risesAbove m lo = true → Memory.risesAbove m lo' = true := by
  cases m with
  | nil => simp [Memory.risesAbove]
  | cons e m =>
    obtain ⟨k, c⟩ := e
    simp only [Memory.risesAbove, Bool.and_eq_true, decide_eq_true_eq]
    rintro ⟨⟨h₁, h₂⟩, h₃⟩
    exact ⟨⟨by omega, h₂⟩, h₃⟩

/-- A write at or above the bound, below 256, keeps the form. -/
theorem Memory.risesAbove_write {m : Memory} {lo a : Nat} (b : Byte) (ha : a < 256) (hlo : lo ≤ a)
    (h : Memory.risesAbove m lo = true) : Memory.risesAbove (Memory.write m a b) lo = true := by
  induction m generalizing lo with
  | nil => simp [Memory.write, Memory.risesAbove, ha, hlo]
  | cons e m ih =>
    obtain ⟨k, c⟩ := e
    simp only [Memory.risesAbove, Bool.and_eq_true, decide_eq_true_eq] at h
    unfold Memory.write
    split
    · simp only [Memory.risesAbove, Bool.and_eq_true, decide_eq_true_eq]
      exact ⟨⟨hlo, ha⟩, ⟨by omega, h.1.2⟩, h.2⟩
    · split
      · next hk => subst hk; simp [Memory.risesAbove, h]
      · simp only [Memory.risesAbove, Bool.and_eq_true, decide_eq_true_eq]
        exact ⟨h.1, ih (by omega) h.2⟩

/-- Every memory operation keeps the canonical form: the one operation that changes RX is a write below 256. -/
theorem Memory.write_wf {m : Memory} {a : Nat} (b : Byte) (ha : a < 256) (h : Memory.wf m = true) :
    Memory.wf (Memory.write m a b) = true :=
  Memory.risesAbove_write b ha (Nat.zero_le a) h

/-- The reset memory has the canonical form. -/
theorem State.reset_rx_wf : Memory.wf State.reset.rx = true := rfl

/-- RX[i] after `RX[i] <- b`. -/
@[simp] theorem State.rxAt_setRx_same (s : State) (i : Nat) (b : Byte) : (s.setRx i b).rxAt i = b := by
  simp [State.rxAt, State.setRx]

/-- RX[j] after `RX[i] <- b`, for another j. -/
theorem State.rxAt_setRx_other (s : State) {i j : Nat} (b : Byte) (h : j ≠ i) :
    (s.setRx i b).rxAt j = s.rxAt j := by
  simp [State.rxAt, State.setRx, Memory.read_write_other _ b h]

/-- RX[i] depends on the buffer and its power-on draw only. -/
theorem State.rxAt_congr {s t : State} (hr : t.rx = s.rx) (hd : t.rxDraw = s.rxDraw) (i : Nat) :
    t.rxAt i = s.rxAt i := by
  simp [State.rxAt, hr, hd]

end Sys2Proof.Machine
end

