-- ==== Sys2Proof/Laws/PerInstr.lean ====
section
/-! SUPPORT. The per-instruction family TableRow: the encoding of every well-formed instruction is one of the bus writes of
its own rows of spec/opcode_table.json. -/

namespace Sys2Proof.Laws.TableRow

/-- The instruction's bus write is one of a table row with the instruction's own mnemonic. -/
def Statement (i : Instr) : Prop :=
  wellFormed i = true → ∃ r ∈ opcodeTable, r.mnemonic = mnemonic i ∧ rowMatches r (encode i) = true

theorem nop : Statement .nop := fun _ => ⟨⟨"NOP", 0x003#9, 0xFFFF#16, 0x0000#16⟩, by decide, rfl, rfl⟩

theorem crcInit : Statement .crcInit :=
  fun _ => ⟨⟨"CRC_INIT", 0x003#9, 0xFFFF#16, 0x0001#16⟩, by decide, rfl, rfl⟩

theorem build : Statement .build := fun _ => ⟨⟨"BUILD", 0x003#9, 0xFFFF#16, 0x0002#16⟩, by decide, rfl, rfl⟩

theorem send : Statement .send := fun _ => ⟨⟨"SEND", 0x003#9, 0xFFFF#16, 0x0003#16⟩, by decide, rfl, rfl⟩

theorem recv : Statement .recv := fun _ => ⟨⟨"RECV", 0x003#9, 0xFFFF#16, 0x0004#16⟩, by decide, rfl, rfl⟩

theorem validateRtu : Statement .validateRtu :=
  fun _ => ⟨⟨"VALIDATE_RTU", 0x003#9, 0xFFFF#16, 0x0005#16⟩, by decide, rfl, rfl⟩

theorem validateTcp : Statement .validateTcp :=
  fun _ => ⟨⟨"VALIDATE_TCP", 0x003#9, 0xFFFF#16, 0x0006#16⟩, by decide, rfl, rfl⟩

theorem abort : Statement .abort := fun _ => ⟨⟨"ABORT", 0x003#9, 0xFFFF#16, 0x0007#16⟩, by decide, rfl, rfl⟩

theorem crcUpdate (d : Byte) : Statement (.crcUpdate d) :=
  fun _ => ⟨⟨"CRC_UPDATE", 0x00B#9, 0x0000#16, 0x0000#16⟩, by decide, rfl, by simp [rowMatches, encode]⟩

theorem crcWrite (v : Word) : Statement (.crcWrite v) :=
  fun _ => ⟨⟨"CRC_WRITE", 0x00A#9, 0x0000#16, 0x0000#16⟩, by decide, rfl, by simp [rowMatches, encode]⟩

theorem softReset : Statement .softReset :=
  fun _ => ⟨⟨"SOFT_RESET", 0x000#9, 0x8000#16, 0x8000#16⟩, by decide, rfl, rfl⟩

theorem ctrlWrite (en autorx : Bool) (baud : BitVec 3) : Statement (.ctrlWrite en autorx baud) := by
  intro _
  refine ⟨⟨"CTRL_WRITE", 0x000#9, 0x8000#16, 0x0000#16⟩, by decide, rfl, ?_⟩
  revert en autorx baud
  decide

/-- A value whose highest set bit is bit k has that bit alone among its bits k and up. -/
theorem highest_bit (v : Word) (k : Nat) (hk : k < 16) (lo : 2 ^ k ≤ v.toNat) (hi : v.toNat < 2 ^ (k + 1)) :
    v &&& (0xFFFF#16 <<< k) = 1#16 <<< k := by
  apply BitVec.eq_of_getLsbD_eq
  intro i hi16
  simp only [BitVec.getLsbD_and, BitVec.getLsbD_shiftLeft, BitVec.getLsbD_one]
  rcases Nat.lt_trichotomy i k with h | h | h
  · simp [h]
  · subst h
    have hbit : v.getLsbD i = true := by
      have hd : v.toNat / 2 ^ i = 1 := by
        apply Nat.div_eq_of_lt_le
        · omega
        · rw [Nat.pow_succ] at hi; omega
      rw [BitVec.getLsbD, Nat.testBit_eq_decide_div_mod_eq, hd]
      rfl
    simp [hbit, hi16]
  · have hz : v.getLsbD i = false := by
      rw [BitVec.getLsbD]
      exact Nat.testBit_lt_two_pow (Nat.lt_of_lt_of_le hi (Nat.pow_le_pow_right (by decide) h))
    have : i - k ≠ 0 := by omega
    simp [hz, this]

/-- The row of an illegal value is that of its highest set bit. -/
theorem illegalRow (v : Word) (h : 8 ≤ v.toNat) :
    ∃ r ∈ illegalRows, v &&& r.mask = r.pattern ∧ r.slot = 0x003#9 ∧ r.mnemonic = "ILLEGAL_CMD" := by
  have hv := v.isLt
  have row : ∀ k (hk : 3 ≤ k ∧ k < 16), 2 ^ k ≤ v.toNat → v.toNat < 2 ^ (k + 1) →
      ∃ r ∈ illegalRows, v &&& r.mask = r.pattern ∧ r.slot = 0x003#9 ∧ r.mnemonic = "ILLEGAL_CMD" := by
    intro k hk lo hi
    have hb := highest_bit v k hk.2 lo hi
    obtain rfl | rfl | rfl | rfl | rfl | rfl | rfl | rfl | rfl | rfl | rfl | rfl | rfl :
        k = 3 ∨ k = 4 ∨ k = 5 ∨ k = 6 ∨ k = 7 ∨ k = 8 ∨ k = 9 ∨ k = 10 ∨ k = 11 ∨ k = 12 ∨ k = 13 ∨ k = 14 ∨
        k = 15 := by omega
    all_goals exact ⟨⟨"ILLEGAL_CMD", 0x003#9, _, _⟩, by decide, hb, rfl, rfl⟩
  have h0 : v.toNat ≠ 0 := by omega
  refine row v.toNat.log2 ⟨(Nat.le_log2 h0).2 h, (Nat.log2_lt h0).2 hv⟩ (Nat.log2_self_le h0) ?_
  exact Nat.lt_log2_self

theorem illegalCmd (v : Word) : Statement (.illegalCmd v) := by
  intro h
  have h8 : 8 ≤ v.toNat := by simpa [wellFormed] using h
  obtain ⟨r, hr, hm, hs, hn⟩ := illegalRow v h8
  refine ⟨r, ?_, hn, ?_⟩
  · simp only [opcodeTable, List.mem_append]; exact .inr hr
  · simp [rowMatches, encode, hm, hs]

end Sys2Proof.Laws.TableRow
end

