-- ==== Sys2Proof/Laws/Run.lean ====
section
/-! SUPPORT. Steps, events and runs: what the step does with the next event, that an event leaves the events after it
alone, and how a run of a list of events unfolds. -/

namespace Sys2Proof.Machine

/-- With no event to come, a step changes nothing. -/
theorem step_idle {s : State} (h : s.pending = []) : step s = .next s := by
  simp [step, advance, h]

/-- A step takes the next event. -/
theorem step_event {s : State} {e : Event} {rest : List Event} (h : s.pending = e :: rest) :
    step s = takeEvent e (s.setPending rest) := by
  simp [step, advance, h]

/-- While `rst_n` is high, an event runs. -/
theorem takeEvent_high {s : State} (e : Event) (h : s.rstHigh = true) : takeEvent e s = runEvent e s := by
  simp [takeEvent, h]

/-- While `rst_n` is low, the block is held. -/
theorem takeEvent_low {s : State} (e : Event) (h : s.rstHigh = false) : takeEvent e s = .next (heldEvent e s) := by
  simp [takeEvent, h]

/-- What TxTake can do, once. -/
theorem txTake_cases {s t : State} (h : txTake s = .next t) :
    (s.status.txact = false ∧ t = s) ∨
    ∃ hp : s.txPos.val < 8, s.status.txact = true ∧
      t = if (s.emitByte hp).txPos = s.txLen then (s.emitByte hp).txComplete else s.emitByte hp := by
  unfold txTake at h
  split at h
  · next hx =>
    split at h
    · next hp => exact .inr ⟨hp, hx, (Host.Outcome.next.inj h).symm⟩
    · cases h
  · next hx => exact .inl ⟨by simpa using hx, (Host.Outcome.next.inj h).symm⟩

/-- What RxByte can do, once. -/
theorem rxByte_cases {s t : State} {b : Byte} (h : rxByte b s = .next t) :
    (s.status.rxact = false ∧ t = { s with status.drop := true }) ∨
    ∃ hp : s.rxLen.val < 256, s.status.rxact = true ∧
      t = if (s.storeByte b hp).rxLen = s.maxRx then (s.storeByte b hp).endRx .full else s.storeByte b hp := by
  unfold rxByte at h
  split at h
  · next hx =>
    split at h
    · next hp => exact .inr ⟨hp, hx, (Host.Outcome.next.inj h).symm⟩
    · cases h
  · next hx => exact .inl ⟨by simpa using hx, (Host.Outcome.next.inj h).symm⟩

/-- What a tick can do, once. -/
theorem tick_cases (s : State) :
    (s.status.txact = true ∧ (tick s = s.countTx ∨ tick s = s.countTx.endTxTimeout)) ∨
    (s.status.txact = false ∧ s.status.rxact = true ∧
      (tick s = s.countRx ∨ ∃ r, (r = .gap ∨ r = .window ∨ r = .timeout) ∧ tick s = s.countRx.endRx r)) ∨
    (s.status.txact = false ∧ s.status.rxact = false ∧ tick s = s) := by
  unfold tick
  split
  · next hx =>
    refine .inl ⟨hx, ?_⟩
    unfold State.tickTx
    dsimp only
    split
    · exact .inr rfl
    · exact .inl rfl
  · next hx =>
    have hx : s.status.txact = false := by simpa using hx
    split
    · next hr =>
      refine .inr (.inl ⟨hx, hr, ?_⟩)
      unfold State.tickRx
      dsimp only
      split
      · exact .inr ⟨.gap, .inl rfl, rfl⟩
      · split
        · split
          · exact .inr ⟨.timeout, .inr (.inr rfl), rfl⟩
          · exact .inr ⟨.window, .inr (.inl rfl), rfl⟩
        · exact .inl rfl
    · next hr => exact .inr (.inr ⟨hx, by simpa using hr, rfl⟩)

/-- What the end of a transmission can do, once. -/
theorem txComplete_cases (s : State) :
    (s.ctrl.autorx = true ∧ s.txComplete = s.endSend.armRx) ∨ (s.ctrl.autorx = false ∧ s.txComplete = s.endSend) := by
  unfold State.txComplete
  dsimp only
  split
  · next h => exact .inl ⟨h, rfl⟩
  · next h => exact .inr ⟨by simpa using h, rfl⟩

/-! ## The events after an event are the agents', not the block's -/

/-- An instruction leaves the events to come as they are. -/
theorem exec_pending {i : Instr} {s t : State} (h : exec i s = .next t) : t.pending = s.pending := by
  cases i
  case build =>
    simp only [exec, execBuild] at h
    split at h; · cases h; simp
    split at h; · cases h; simp
    split at h <;> · cases h; simp
  case send =>
    simp only [exec, execSend] at h
    split at h; · cases h; simp
    split at h; · cases h; simp
    split at h <;> · cases h; simp
  case recv =>
    simp only [exec, execRecv] at h
    split at h; · cases h; simp
    split at h <;> · cases h; simp
  case validateRtu =>
    simp only [exec, execValidateRtu] at h
    split at h; · cases h; simp
    split at h <;> · cases h; simp
  case validateTcp =>
    simp only [exec, execValidateTcp] at h
    split at h; · cases h; simp
    split at h <;> · cases h; simp
  case ctrlWrite en autorx baud =>
    simp only [exec, execCtrlWrite] at h
    split at h <;> · cases h; simp
  all_goals
    simp only [exec, execNop, execCrcInit, execCrcUpdate, execCrcWrite, execAbort, execSoftReset, execIllegalCmd] at h
    cases h; simp

/-- A plain register write leaves the events to come as they are. -/
theorem writePlain_pending (s : State) (p : PlainWrite) : (s.writePlain p).pending = s.pending := by
  cases p
  case rxLen v => simp only [State.writePlain, State.writeRxLen]; split <;> first | simp | (split <;> rfl)
  case maxRx v => simp only [State.writePlain, State.writeMaxRx]; split <;> first | simp | (split <;> rfl)
  case rxbuf i b => simp only [State.writePlain, State.writeRxbuf]; split <;> simp
  all_goals simp [State.writePlain]

/-- A tick leaves the events to come as they are. -/
theorem tick_pending (s : State) : (tick s).pending = s.pending := by
  obtain ⟨-, h | h⟩ | ⟨-, -, h | ⟨r, -, h⟩⟩ | ⟨-, -, h⟩ := tick_cases s <;> rw [h] <;> simp

/-- The `rst_n` pin leaves the events to come as they are. -/
theorem resetPin_pending (level : Bool) (s : State) : (resetPin level s).pending = s.pending := by
  unfold resetPin; split <;> first | rfl | (split <;> simp)

/-- An event leaves the events after it as they are. -/
theorem takeEvent_pending {e : Event} {s t : State} (h : takeEvent e s = .next t) : t.pending = s.pending := by
  unfold takeEvent at h
  split at h
  · cases e with
    | memWrite w =>
      simp only [runEvent, hostWrite] at h
      split at h
      · exact exec_pending h
      · cases h; exact writePlain_pending ..
    | memRead idx => cases h; rfl
    | txTake =>
      obtain ⟨-, rfl⟩ | ⟨hp, -, rfl⟩ := txTake_cases h
      · rfl
      · split
        · obtain ⟨-, h⟩ | ⟨-, h⟩ := txComplete_cases (s.emitByte hp) <;> rw [h] <;> simp
        · simp
    | rxByte b =>
      obtain ⟨-, rfl⟩ | ⟨hp, -, rfl⟩ := rxByte_cases h
      · rfl
      · split <;> simp
    | tick => cases h; exact tick_pending s
    | rstN level => cases h; exact resetPin_pending level s
  · cases h
    cases e <;> first | rfl | exact resetPin_pending _ s

/-! ## Runs -/

/-- A run of no event. -/
theorem afterEvents_nil (s : State) : afterEvents [] s = .next (s.setPending []) := rfl

/-- A run takes its first event, and goes on with the rest. -/
theorem afterEvents_cons {s t : State} {e : Event} {es : List Event}
    (h : takeEvent e (s.setPending es) = .next t) : afterEvents (e :: es) s = afterEvents es t := by
  have hp : t.pending = es := takeEvent_pending h
  have h' : Sys2Proof.core.step (s.setPending (e :: es)) = .next t := h
  simp only [afterEvents, List.length_cons, Host.Core.run, h']
  cases t; subst hp; rfl

end Sys2Proof.Machine
end

