-- ==== Sys2Proof/Tests/Slice0.lean ====
section
/-! SUPPORT. Tests of one step each, expected results taken from the spec's examples and vectors; the WellFormed smoke test; the
words of every instruction written out in bits from spec/30_encoding.md; and, for every statement with hypotheses, a witness that
meets them, one for each clause. -/

namespace Sys2Proof.Tests

open Sys2Proof.Machine

/-! ## Small states -/

/-- The next state, if there is one. -/
def after (o : Host.Outcome State Fault Refusal) : Option State :=
  match o with
  | .next s => some s
  | .fault _ => none
  | .refused _ => none

/-- Reset, with EN = 1. -/
def enabled : State := { State.reset with ctrl := { en := true, autorx := true, baud := .b9600 } }

/-- EN = 1 and the request of the example of R115 in TX. -/
def built : State := { enabled with tx := #v[0x01#8, 0x03#8, 0x00#8, 0x00#8, 0x00#8, 0x01#8, 0x84#8, 0x0A#8], txLen := 8 }

/-- SEND accepted and `pos` bytes taken. -/
def sending (pos : Fin 9) : State := { built with txPos := pos, status := { built.status with txact := true } }

/-- A receive window open, with these bytes in RX from index 0 and the counts of them in RX_LEN. -/
def receiving (n : Fin 257) (m : Memory) : State :=
  { built with rxLen := n, rx := m, status := { built.status with rxact := true } }

/-- A frame in RX, in IDLE. -/
def loaded (n : Fin 257) (m : Memory) : State := { State.reset with rxLen := n, rx := m }

/-- The reply of the example of R142. -/
def reply : Memory := [(0, 0x01#8), (1, 0x03#8), (2, 0x02#8), (3, 0x00#8), (4, 0x2A#8), (5, 0x39#8), (6, 0x9B#8)]

/-- The ADU of the example of R149. -/
def adu : Memory := [(0, 0x00#8), (1, 0x07#8), (2, 0x00#8), (3, 0x00#8), (4, 0x00#8), (5, 0x05#8), (6, 0x01#8), (7, 0x03#8),
  (8, 0x02#8), (9, 0x00#8), (10, 0x2A#8)]

/-- `rst_n` is low. -/
def held : State := { State.reset with rxDraw := 1, rstHigh := false }

/-! ## WellFormed -/

/-- The one check: an ILLEGAL_CMD value below 0x0008 is a command, not an illegal one (R87, R88). -/
theorem test_illformed_illegalCmd : wellFormed (.illegalCmd 0x0007#16) = false := by decide

/-- The first and the last illegal value are well formed (R88). -/
theorem test_wellformed_illegalCmd :
    wellFormed (.illegalCmd 0x0008#16) = true ∧ wellFormed (.illegalCmd 0xFFFF#16) = true := by decide

/-! ## Words written out from the encodings: slot (9 bits), value (16 bits) -/

theorem test_decode_nop : decode ⟨0b000000011#9, 0b0000000000000000#16⟩ = .instr .nop := by decide
theorem test_decode_crcInit : decode ⟨0b000000011#9, 0b0000000000000001#16⟩ = .instr .crcInit := by decide
theorem test_decode_build : decode ⟨0b000000011#9, 0b0000000000000010#16⟩ = .instr .build := by decide
theorem test_decode_send : decode ⟨0b000000011#9, 0b0000000000000011#16⟩ = .instr .send := by decide
theorem test_decode_recv : decode ⟨0b000000011#9, 0b0000000000000100#16⟩ = .instr .recv := by decide
theorem test_decode_validateRtu : decode ⟨0b000000011#9, 0b0000000000000101#16⟩ = .instr .validateRtu := by decide
theorem test_decode_validateTcp : decode ⟨0b000000011#9, 0b0000000000000110#16⟩ = .instr .validateTcp := by decide
theorem test_decode_abort : decode ⟨0b000000011#9, 0b0000000000000111#16⟩ = .instr .abort := by decide
theorem test_decode_illegalCmd :
    decode ⟨0b000000011#9, 0b0000000000001000#16⟩ = .instr (.illegalCmd 0x0008#16) ∧
    decode ⟨0b000000011#9, 0b0000000100000001#16⟩ = .instr (.illegalCmd 0x0101#16) := by decide
theorem test_decode_crcUpdate :
    decode ⟨0b000001011#9, 0b0000000100000000#16⟩ = .instr (.crcUpdate 0x00#8) ∧
    decode ⟨0b000001011#9, 0b1111111110000001#16⟩ = .instr (.crcUpdate 0x81#8) := by decide
theorem test_decode_crcWrite : decode ⟨0b000001010#9, 0b1000000001111110#16⟩ = .instr (.crcWrite 0x807E#16) := by decide
theorem test_decode_softReset :
    decode ⟨0b000000000#9, 0b1000000000000000#16⟩ = .instr .softReset ∧
    decode ⟨0b000000000#9, 0b1111111111111111#16⟩ = .instr .softReset := by decide
theorem test_decode_ctrlWrite :
    decode ⟨0b000000000#9, 0b0000000000010001#16⟩ = .instr (.ctrlWrite true false 4#3) ∧
    decode ⟨0b000000000#9, 0b0111111111101010#16⟩ = .instr (.ctrlWrite false true 2#3) := by decide

/-- A write of a plain register is rejected as an instruction by that register's name; one of TX_LEN is ignored (R69). -/
theorem test_decode_plain :
    decode ⟨0x005#9, 0x01F7#16⟩ = .plain (.unitId 0xF7#8) ∧ decode ⟨0x00C#9, 0x0008#16⟩ = .plain .ignored ∧
    decode ⟨0x1FF#9, 0x00AA#16⟩ = .plain (.rxbuf 255 0xAA#8) := by decide

/-- No bus write is written by two rows of the opcode table. -/
theorem test_table_rows_do_not_overlap :
    opcodeTable.Pairwise (fun a b => a.slot ≠ b.slot ∨ (a.pattern ^^^ b.pattern) &&& a.mask &&& b.mask ≠ 0#16) := by decide

/-- A table word of 8 bits is a CRC_DATA value and one of 16 bits a CMD value; a wider word names its slot (notes/assumptions/4). -/
theorem test_decodeTableWord :
    decodeTableWord 8 0x01 = some (.crcUpdate 0x01#8) ∧ decodeTableWord 16 0x0002 = some .build ∧ decodeTableWord 16 0x8000 = some (.illegalCmd 0x8000#16) ∧
    decodeTableWord 32 0x00008000 = some .softReset ∧ decodeTableWord 32 0x000B0001 = some (.crcUpdate 0x01#8) := by decide

/-- `step` runs the placed word as the first instruction after reset: BUILD leaves TX_LEN = 8 (R115). -/
theorem test_withFetchWord : (after (step (State.reset.withFetchWord 16 2))).map (·.txLen) = some 8 := by decide

/-! ## One step of each instruction -/

/-- R156: NOP sets no flag. -/
theorem test_nop : (after (exec .nop enabled)).map (·.status.done) = some false := by decide

/-- The example of R107. -/
theorem test_crcInit :
    (after (exec .crcInit { State.reset with crc := 0x1234#16 })).map (fun t => (t.crc, t.status.done)) =
      some (0xFFFF#16, true) := by decide

/-- The example of R108. -/
theorem test_crcUpdate : (after (exec (.crcUpdate 0x01#8) State.reset)).map (·.crc) = some 0x807E#16 := by decide

/-- The example of R109, its second write. -/
theorem test_crcUpdate_resumes :
    (after (exec (.crcUpdate 0x03#8) { State.reset with crc := 0x807E#16 })).map (·.crc) = some 0x2140#16 := by decide

/-- The example of R109, its first write. -/
theorem test_crcWrite : (after (exec (.crcWrite 0x807E#16) State.reset)).map (·.crc) = some 0x807E#16 := by decide

set_option maxRecDepth 4096 in
/-- The example of R115. -/
theorem test_build :
    (after (exec .build State.reset)).map (fun t => (t.tx, t.crc)) =
      some (#v[0x01#8, 0x03#8, 0x00#8, 0x00#8, 0x00#8, 0x01#8, 0x84#8, 0x0A#8], 0x0A84#16) := by decide

/-- R116: unit 248 is refused; R115: a refusal leaves TX_LEN. -/
theorem test_build_refused :
    (after (exec .build { State.reset with unitId := 248#8 })).map (fun t => (t.errCode, t.txLen)) =
      some (.cfgErr, 0) := by decide

/-- The example of R120, with the ports of R19. -/
theorem test_send : (after (exec .send built)).map (fun t => (t.txValid, t.driverEnable, t.txPos, t.txData)) =
    some (true, true, 0, 0x01#8) := by decide

/-- R120: SEND before any BUILD. -/
theorem test_send_refused : (after (exec .send enabled)).map (fun t => (t.errCode, t.status.txact)) =
    some (.noFrame, false) := by decide

/-- The example of R126. -/
theorem test_recv :
    (after (exec .recv { enabled with rxLen := 7, result := .ok })).map (fun t => (t.status.rxact, t.rxLen, t.result)) =
      some (true, 0, .none) := by decide

/-- R126: RECV with EN = 0. -/
theorem test_recv_refused : (after (exec .recv State.reset)).map (·.errCode) = some .portUnavail := by decide

set_option maxRecDepth 4096 in
/-- The example of R142. -/
theorem test_validateRtu :
    (after (exec .validateRtu (loaded 7 reply))).map (fun t => (t.result, t.rxCrc, t.crc, t.payOff, t.payLen)) =
      some (.ok, 0x9B39#16, 0x9B39#16, 2#9, 3#9) := by decide

/-- R142, R144: three bytes are SHORT, and the fields are 0. -/
theorem test_validateRtu_short :
    (after (exec .validateRtu { loaded 3 reply with respUnit := 9#8 })).map (fun t => (t.result, t.respUnit)) =
      some (.short, 0#8) := by decide

/-- The example of R149. -/
theorem test_validateTcp :
    (after (exec .validateTcp (loaded 11 adu))).map (fun t => (t.result, t.mbTid, t.mbLen, t.payOff, t.payLen)) =
      some (.ok, 0x0007#16, 5#16, 8#9, 3#9) := by decide

/-- R150: one byte fewer than MB_LEN says. -/
theorem test_validateTcp_length :
    (after (exec .validateTcp (loaded 10 adu))).map (fun t => (t.result, t.payLen)) = some (.mbapLen, 0#9) := by decide

/-- The example of R160: an abort after three bytes. -/
theorem test_abort :
    (after (exec .abort (sending 3))).map (fun t => (t.status.txact, t.txPos, t.status.done, t.status.txdone)) =
      some (false, 3, true, false) := by decide

/-- R160, R127: an open window ends with ABORT and without RXDONE. -/
theorem test_abort_window :
    (after (exec .abort (receiving 0 []))).map (fun t => (t.rxEnd, t.status.rxdone, t.status.rxact)) =
      some (.abort, false, false) := by decide

/-- R158: EN falls, and RX keeps its bytes. -/
theorem test_softReset :
    (after (exec .softReset (receiving 1 [(0, 0x55#8)]))).map (fun t => (t.ctrl.en, t.rxLen, t.rx)) =
      some (false, 0, [(0, 0x55#8)]) := by decide

/-- R23: BAUD code 5 leaves BAUD unchanged; R159: EN and AUTORX are written. -/
theorem test_ctrlWrite :
    (after (exec (.ctrlWrite true false 5#3) State.reset)).map (·.ctrl) =
      some { en := true, autorx := false, baud := .b9600 } := by decide

/-- R159: clearing EN in a transfer ends it with DONE. -/
theorem test_ctrlWrite_aborts :
    (after (exec (.ctrlWrite false true 0#3) (sending 2))).map (fun t => (t.status.txact, t.status.done, t.txPos)) =
      some (false, true, 2) := by decide

/-- R88: the error is recorded while busy too, and the transfer goes on. -/
theorem test_illegalCmd :
    (after (exec (.illegalCmd 0x0102#16) (sending 2))).map (fun t => (t.errCode, t.status.err, t.status.txact)) =
      some (.illegalCmd, true, true) := by decide

/-! ## One event of each other kind -/

/-- The example of R121: the last byte goes out, and with AUTORX the same step arms the receiver (R124). -/
theorem test_txTake :
    (after (txTake (sending 7))).map (fun t => (t.wire, t.status.txact, t.status.txdone, t.status.rxact)) =
      some ([0x0A#8], false, true, true) := by decide

/-- The example of R132. -/
theorem test_rxByte : (after (rxByte 0x01#8 (receiving 0 []))).map (fun t => (t.rx, t.rxLen)) =
    some ([(0, 0x01#8)], 1) := by decide

/-- R133: a byte outside a window is dropped. -/
theorem test_rxByte_drop :
    (after (rxByte 0x01#8 (sending 1))).map (fun t => (t.rx, t.status.drop, t.status.err)) = some ([], true, false) := by decide

/-- The example of R128. -/
theorem test_tick_timeout :
    (fun t : State => (t.rxElapsed, t.rxEnd, t.status.rxto, t.status.done, t.status.err))
      (tick { receiving 0 [] with rxElapsed := 999#16 }) = (1000#16, .timeout, true, true, false) := by decide

/-- R130: the fourth silent tick ends a frame with GAP. -/
theorem test_tick_gap :
    (fun t : State => (t.rxEnd, t.rxSilence)) (tick { receiving 1 [(0, 1#8)] with rxSilence := 3#16 }) = (.gap, 4#16) := by decide

/-- R138: the write timeout; TXDONE is not set. -/
theorem test_tick_txTimeout :
    (fun t : State => (t.errCode, t.status.txdone, t.status.rxact, t.txPos))
      (tick { sending 5 with txElapsed := 999#16 }) = (.txTimeout, false, false, 5) := by decide

/-- R24, R27: clearing ERR clears ERR_CODE, and leaves DONE. -/
theorem test_status_w1c :
    (fun t : State => (t.errCode, t.statusWord))
      (({ State.reset with errCode := .busy, status := { State.reset.status with err := true, done := true } }).clearStatus
        0x0080#16) = (.none, 0x0008#16) := by decide

/-- R39: RX_LEN = 257 is kept out; R40: so is MAX_RX = 0. -/
theorem test_warl_keep :
    (State.reset.writeRxLen 257#16).rxLen = 0 ∧ (State.reset.writeRxLen 256#16).rxLen = 256 ∧
    (State.reset.writeMaxRx 0#16).maxRx = 256 := by decide

/-- R183: a read while `rst_n` is low returns 0. -/
theorem test_held_read :
    (after (takeEvent (.memRead 0x00A#9) held)).map (·.busRdata) = some 0x0000#16 := by decide

/-- R22: the Modbus-TCP port reads 502. -/
theorem test_read_tcpPort : (hostRead 0x020#9 State.reset).busRdata = 502#16 := by decide

/-! ## The invariant in states of every kind -/

theorem inv_built : Inv built := by constructor <;> decide
theorem inv_sending_first : Inv (sending 0) := by constructor <;> decide
theorem inv_sending_last : Inv (sending 7) := by constructor <;> decide
theorem inv_receiving_first : Inv (receiving 0 []) := by constructor <;> decide
theorem inv_receiving_last : Inv { receiving 0 [] with maxRx := 1 } := by constructor <;> decide
theorem inv_held : Inv held := by constructor <;> decide

/-! ## Witnesses: states and operands that meet the hypotheses of the statements, one for each clause

`on e s` is s with the event e to come next. -/

/-- s with one event to come. -/
def on (e : Event) (s : State) : State := s.setPending [e]

theorem witness_DecodeEncodeRoundTrip : wellFormed (.illegalCmd 0x0008#16) = true ∧ wellFormed .nop = true := by decide

theorem witness_EveryActingWriteDecodesToOneOperation :
    (0x8000#16 : Word).getLsbD 15 = true ∧ (0x7FFF#16 : Word).getLsbD 15 = false := by decide

theorem witness_TableRowsDecodeToTheirMnemonic :
    (∃ r ∈ opcodeTable, (0xFFFF#16 : Word) &&& r.mask = r.pattern ∧ r.mnemonic = "ILLEGAL_CMD") ∧
    (∃ r ∈ opcodeTable, (0x0008#16 : Word) &&& r.mask = r.pattern ∧ r.mnemonic = "ILLEGAL_CMD") ∧
    (∃ r ∈ opcodeTable, (0x7FFF#16 : Word) &&& r.mask = r.pattern ∧ r.mnemonic = "CTRL_WRITE") := by decide

theorem witness_StepRunsTheDecodedInstruction :
    (on (cmd .build) State.reset).rstHigh = true ∧ (on (cmd .build) State.reset).pending = .memWrite (encode .build) :: [] ∧
    decode (encode .build) = .instr .build ∧ decodeTableWord 16 2 = some .build := by decide

theorem witness_StepKeepsTheInvariant :
    Inv (on .txTake (sending 7)) ∧ ∃ t, step (on .txTake (sending 7)) = .next t :=
  ⟨by constructor <;> decide, _, rfl⟩

/-- A fault is met where the statement says: TX_POS = 8 with TXACT = 1, and RX_LEN = 256 with RXACT = 1. -/
theorem witness_StopsOnlyOutsideTheBuffers :
    step (on .txTake (sending 8)) = .fault .txIndex ∧ step (on (.rxByte 0#8) (receiving 256 [])) = .fault .rxIndex :=
  ⟨rfl, rfl⟩

/-- IDLE to TX, IDLE to RX, TX to RX. -/
theorem witness_SequencerTransitions_start :
    (Inv (on (cmd .send) built) ∧ ∃ t, step (on (cmd .send) built) = .next t ∧ t.fsm ≠ (on (cmd .send) built).fsm) ∧
    (Inv (on (cmd .recv) built) ∧ ∃ t, step (on (cmd .recv) built) = .next t ∧ t.fsm ≠ (on (cmd .recv) built).fsm) ∧
    (Inv (on .txTake (sending 7)) ∧ ∃ t, step (on .txTake (sending 7)) = .next t ∧ t.fsm ≠ (on .txTake (sending 7)).fsm) :=
  ⟨⟨by constructor <;> decide, _, rfl, by decide⟩, ⟨by constructor <;> decide, _, rfl, by decide⟩,
   ⟨by constructor <;> decide, _, rfl, by decide⟩⟩

/-- TX to IDLE by the timeout, RX to IDLE by FULL and by `rst_n`. -/
theorem witness_SequencerTransitions_end :
    (∃ s, Inv s ∧ s.fsm = .tx ∧ ∃ t, step s = .next t ∧ t.fsm ≠ s.fsm) ∧
    (∃ s, Inv s ∧ s.fsm = .rx ∧ ∃ t, step s = .next t ∧ t.fsm ≠ s.fsm) ∧
    (∃ s, Inv s ∧ s.fsm = .rx ∧ s.pending = [.rstN false] ∧ ∃ t, step s = .next t ∧ t.fsm ≠ s.fsm) :=
  ⟨⟨on .tick { sending 0 with txTimeout := 0#16 }, by constructor <;> decide, by decide, _, rfl, by decide⟩,
   ⟨on (.rxByte 1#8) { receiving 0 [] with maxRx := 1 }, by constructor <;> decide, by decide, _, rfl, by decide⟩,
   ⟨on (.rstN false) (receiving 0 []), by constructor <;> decide, by decide, rfl, _, rfl, by decide⟩⟩

/-- Bit 3 falls by a write of STATUS, bit 8 by a soft reset. -/
theorem witness_StickyFlagsFallOnlyByWriteOrReset :
    (∃ s t, step s = .next t ∧ s.statusWord.getLsbD 3 = true ∧ t.statusWord.getLsbD 3 = false) ∧
    (∃ s t, step s = .next t ∧ s.statusWord.getLsbD 8 = true ∧ t.statusWord.getLsbD 8 = false) :=
  ⟨⟨on (wr .status 0x0008#16) { built with status := { built.status with done := true } }, _, rfl, by decide, by decide⟩,
   ⟨on (cmd .softReset) { built with status := { built.status with drop := true } }, _, rfl, by decide, by decide⟩⟩

theorem witness_TransmittedBytesAreFixed :
    ∃ t, step (on (wr .unitId 9#16) (sending 0)) = .next t ∧ (on (wr .unitId 9#16) (sending 0)).status.txact = true ∧
      t.status.txact = true := ⟨_, rfl, rfl, rfl⟩

/-- A received byte that leaves the window open, for MAX_RX; and a tick, for the rest. -/
theorem witness_ReceiverAloneWritesRxInAWindow :
    (Inv (on (.rxByte 1#8) (receiving 0 [])) ∧ ∃ t, step (on (.rxByte 1#8) (receiving 0 [])) = .next t ∧ t.status.rxact = true) ∧
    Inv (on .tick (receiving 0 [])) ∧ (∃ t, step (on .tick (receiving 0 [])) = .next t ∧ t.status.rxact = true) ∧
      (on .tick (receiving 0 [])).status.rxact = true ∧ ∀ b rest, (on .tick (receiving 0 [])).pending ≠ .rxByte b :: rest :=
  ⟨⟨by constructor <;> decide, _, rfl, by decide⟩, by constructor <;> decide, ⟨_, rfl, by decide⟩, rfl,
   by intro b rest h; cases h⟩

theorem witness_BaudAffectsNoRule : (.memRead 0x001#9 : Event) ≠ .memRead 0x000#9 := by decide

/-- Two machines that differ in RX from index 1 = RX_LEN on. -/
theorem witness_BytesBeyondTheFrameAffectNoRule :
    (∀ a, a < (loaded 1 [(0, 5#8)]).rxLen.val →
      ({ loaded 1 [(0, 5#8)] with rx := [(0, 5#8), (1, 9#8)], rxDraw := 7 } : State).rxAt a = (loaded 1 [(0, 5#8)]).rxAt a) ∧
    (∀ idx : SlotIdx, (cmd .validateRtu : Event) = .memRead idx → idx.toNat < 0x100) :=
  ⟨fun a h => by cases a with | zero => rfl | succ a => exact absurd (Nat.lt_of_succ_lt_succ h) (Nat.not_lt_zero a),
   fun _ h => by cases h⟩

theorem witness_CrcWritesAccumulateTheCrc : State.reset.rstHigh = true ∧ (sending 3).rstHigh = true := ⟨rfl, rfl⟩

theorem witness_SingleBitChangesAlterTheCrc : 0 < 8 ∧ 7 < 8 := by decide

/-- Busy in TX and in RX; units 0 and 248, function code 4; units 1 and 247. -/
theorem witness_BuildEffect :
    (sending 0).status.txact = true ∧ (receiving 0 []).status.rxact = true ∧ idle State.reset ∧
    ({ State.reset with unitId := 0#8 } : State).unitId.toNat = 0 ∧ 247 < ({ State.reset with unitId := 248#8 } : State).unitId.toNat ∧
    ({ State.reset with func := 4#8 } : State).func ≠ 0x03#8 ∧
    (1 ≤ State.reset.unitId.toNat ∧ State.reset.unitId.toNat ≤ 247 ∧ State.reset.func = 0x03#8) ∧
    ({ State.reset with unitId := 247#8 } : State).unitId.toNat ≤ 247 := by
  refine ⟨rfl, rfl, ⟨rfl, rfl⟩, ?_⟩; decide

/-- The request of unit 1, and a receiver that holds its 8 bytes. -/
theorem witness_BuiltRequestValidates :
    idle State.reset ∧ 1 ≤ State.reset.unitId.toNat ∧ State.reset.unitId.toNat ≤ 247 ∧ State.reset.func = 0x03#8 ∧
    ∃ r : State, idle r ∧ r.rxLen.val = 8 ∧ (∀ i : Fin 8, r.rxAt i.val = built.tx[i.val]) ∧ r.expUnit = State.reset.unitId := by
  refine ⟨⟨rfl, rfl⟩, by decide, by decide, rfl, loaded 8 [(0, 0x01#8), (1, 0x03#8), (2, 0x00#8), (3, 0x00#8), (4, 0x00#8),
    (5, 0x01#8), (6, 0x84#8), (7, 0x0A#8)], ⟨rfl, rfl⟩, rfl, by decide, rfl⟩

theorem witness_TransferCommandsAreRefusedWhileBusy :
    (sending 0).status.txact = true ∧ (receiving 0 []).status.rxact = true ∧ Instr.build = .build := ⟨rfl, rfl, rfl⟩

theorem witness_SendEffect :
    (sending 0).status.txact = true ∧ (idle State.reset ∧ State.reset.ctrl.en = false) ∧
    (idle enabled ∧ enabled.ctrl.en = true ∧ enabled.txLen.val = 0) ∧ (idle built ∧ built.ctrl.en = true ∧ built.txLen.val ≠ 0) :=
  ⟨rfl, ⟨⟨rfl, rfl⟩, rfl⟩, ⟨⟨rfl, rfl⟩, rfl, rfl⟩, ⟨⟨rfl, rfl⟩, rfl, by decide⟩⟩

theorem witness_RecvEffect :
    (receiving 0 []).status.rxact = true ∧ (idle State.reset ∧ State.reset.ctrl.en = false) ∧
    (idle enabled ∧ enabled.ctrl.en = true) := ⟨rfl, ⟨⟨rfl, rfl⟩, rfl⟩, ⟨⟨rfl, rfl⟩, rfl⟩⟩

/-- No transfer; a first byte; a last byte with AUTORX = 1 and with AUTORX = 0. -/
theorem witness_TxTakeEmitsOneByte :
    (on .txTake built).rstHigh = true ∧ (on .txTake built).pending = [.txTake] ∧ (on .txTake built).status.txact = false ∧
    ((on .txTake (sending 0)).status.txact = true ∧ (on .txTake (sending 0)).txPos.val < 8 ∧
      (on .txTake (sending 0)).txPos.val + 1 ≠ (on .txTake (sending 0)).txLen.val) ∧
    ((sending 7).txPos.val < 8 ∧ (sending 7).txPos.val + 1 = (sending 7).txLen.val ∧ (sending 7).ctrl.autorx = true) ∧
    ({ sending 7 with ctrl := { en := true, autorx := false, baud := .b9600 } } : State).ctrl.autorx = false := by decide

/-- Eight takes and one tick of two, after SEND and after BUILD and SEND. -/
theorem witness_BytesLeaveInIndexOrder :
    Inv { built with txTimeout := 2#16 } ∧ ({ built with txTimeout := 2#16 } : State).rstHigh = true ∧
    idle { built with txTimeout := 2#16 } ∧ built.ctrl.en = true ∧ built.txLen.val = 8 ∧
    (∀ e ∈ (.tick :: lineTake 8 : List Event), e.passive = true) ∧
    tickCount (.tick :: lineTake 8) < ({ built with txTimeout := 2#16 } : State).txTimeout.toNat ∧
    takeCount (.tick :: lineTake 8) = 8 ∧ 1 ≤ built.unitId.toNat ∧ built.unitId.toNat ≤ 247 ∧ built.func = 0x03#8 :=
  ⟨by constructor <;> decide, rfl, ⟨rfl, rfl⟩, rfl, rfl, by decide, by decide, by decide, by decide, by decide, rfl⟩

/-- No window; a byte that leaves it open; byte number MAX_RX, at the least and the greatest MAX_RX. -/
theorem witness_RxByteStoresOrDrops :
    (on (.rxByte 7#8) built).rstHigh = true ∧ (on (.rxByte 7#8) built).pending = [.rxByte 7#8] ∧
    (on (.rxByte 7#8) built).status.rxact = false ∧
    ((receiving 254 []).status.rxact = true ∧ (receiving 254 []).rxLen.val < 256 ∧
      (receiving 254 []).rxLen.val + 1 ≠ (receiving 254 []).maxRx.val) ∧
    ((receiving 255 []).rxLen.val < 256 ∧ (receiving 255 []).rxLen.val + 1 = (receiving 255 []).maxRx.val) ∧
    (receiving 0 []).rxLen.val + 1 = ({ receiving 0 [] with maxRx := 1 } : State).maxRx.val := by decide

theorem witness_ReceivedBytesAreStoredUnchanged :
    Inv { receiving 0 [] with maxRx := 2 } ∧ ({ receiving 0 [] with maxRx := 2 } : State).rstHigh = true ∧
    ({ receiving 0 [] with maxRx := 2 } : State).status.rxact = true ∧
    ({ receiving 0 [] with maxRx := 2 } : State).rxLen.val + [0x7E#8, 0x10#8].length ≤
      ({ receiving 0 [] with maxRx := 2 } : State).maxRx.val := ⟨by constructor <;> decide, rfl, rfl, by decide⟩

/-- GAP at GAP_TICKS = 1; WINDOW and TIMEOUT at RX_TIMEOUT = 0; and a window that stays open. -/
theorem witness_TickInAWindow :
    ((on .tick (receiving 1 [])).rstHigh = true ∧ (on .tick (receiving 1 [])).pending = [.tick] ∧
      (on .tick (receiving 1 [])).status.txact = false ∧ (on .tick (receiving 1 [])).status.rxact = true) ∧
    (({ receiving 1 [] with gapTicks := 1#16 } : State).gapTicks.toNat ≠ 0 ∧ (receiving 1 []).rxLen.val ≠ 0 ∧
      ({ receiving 1 [] with gapTicks := 1#16 } : State).gapTicks.toNat ≤ min ((receiving 1 []).rxSilence.toNat + 1) 0xFFFF) ∧
    ({ receiving 1 [] with gapTicks := 0#16, rxTimeout := 0#16 } : State).rxTimeout.toNat ≤
      min ((receiving 1 []).rxElapsed.toNat + 1) 0xFFFF ∧
    ((receiving 0 []).rxLen.val = 0 ∧ ({ receiving 0 [] with rxTimeout := 1#16 } : State).rxTimeout.toNat ≤
      min ((receiving 0 []).rxElapsed.toNat + 1) 0xFFFF) ∧
    min ((receiving 0 []).rxElapsed.toNat + 1) 0xFFFF < (receiving 0 []).rxTimeout.toNat := by decide

/-- Below the timeout; at it, with the counter at its end; and IDLE. -/
theorem witness_TickInATransmissionAndInIdle :
    ((on .tick (sending 1)).rstHigh = true ∧ (on .tick (sending 1)).pending = [.tick] ∧ (on .tick (sending 1)).status.txact = true ∧
      min ((sending 1).txElapsed.toNat + 1) 0xFFFF < (sending 1).txTimeout.toNat) ∧
    ({ sending 1 with txTimeout := 0xFFFF#16 } : State).txTimeout.toNat ≤
      min (({ sending 1 with txElapsed := 0xFFFF#16 } : State).txElapsed.toNat + 1) 0xFFFF ∧
    idle built := ⟨by decide, by decide, rfl, rfl⟩

/-- RX_TIMEOUT = 0 and 2. -/
theorem witness_ReceiveWindowEnds :
    (Inv { receiving 0 [] with rxTimeout := 0#16 } ∧ max ({ receiving 0 [] with rxTimeout := 0#16 } : State).rxTimeout.toNat 1 ≤
      tickCount [.rxByte 1#8, .tick]) ∧
    (Inv { receiving 0 [] with rxTimeout := 2#16 } ∧ max ({ receiving 0 [] with rxTimeout := 2#16 } : State).rxTimeout.toNat 1 ≤
      tickCount [.tick, .rxByte 1#8, .tick]) ∧
    (∀ e ∈ ([.tick, .rxByte 1#8, .tick] : List Event), e.passive = true) ∧
    (receiving 0 []).rstHigh = true ∧ (receiving 0 []).status.rxact = true ∧ (receiving 0 []).rxElapsed = 0x0000#16 :=
  ⟨⟨by constructor <;> decide, by decide⟩, ⟨by constructor <;> decide, by decide⟩, by decide, rfl, rfl, rfl⟩

theorem witness_TransmissionEnds :
    Inv { sending 0 with txTimeout := 2#16 } ∧ (sending 0).rstHigh = true ∧ (sending 0).status.txact = true ∧
    (sending 0).txElapsed = 0x0000#16 ∧ (∀ e ∈ ([.tick, .txTake, .tick] : List Event), e.passive = true) ∧
    max ({ sending 0 with txTimeout := 2#16 } : State).txTimeout.toNat 1 ≤ tickCount [.tick, .txTake, .tick] :=
  ⟨by constructor <;> decide, rfl, rfl, rfl, by decide, by decide⟩

/-- Busy; 3 bytes; 4 bytes. -/
theorem witness_ValidateRtuEffect :
    (sending 0).status.txact = true ∧ idle (loaded 3 reply) ∧ (loaded 3 reply).rxLen.val < 4 ∧ idle (loaded 4 reply) ∧
    4 ≤ (loaded 4 reply).rxLen.val := ⟨rfl, ⟨rfl, rfl⟩, by decide, ⟨rfl, rfl⟩, by decide⟩

set_option maxRecDepth 4096 in
/-- Each check fails somewhere, with those before it passing. -/
theorem witness_RtuCheckOrder :
    idle (loaded 3 reply) ∧ (loaded 3 reply).rxLen.val < 4 ∧
    (4 ≤ (loaded 7 reply).rxLen.val ∧ (loaded 7 reply).rxAt 0 ≠ ({ loaded 7 reply with expUnit := 2#8 } : State).expUnit) ∧
    ((loaded 4 [(0, 1#8), (1, 4#8)]).rxAt 0 = (loaded 4 [(0, 1#8), (1, 4#8)]).expUnit ∧
      (loaded 4 [(0, 1#8), (1, 4#8)]).rxAt 1 ≠ 0x03#8) ∧
    ((loaded 4 reply).rxAt 0 = (loaded 4 reply).expUnit ∧ (loaded 4 reply).rxAt 1 = 0x03#8 ∧
      (loaded 4 reply).computedCrc 4 ≠ (loaded 4 reply).receivedCrc 4) := by
  refine ⟨⟨rfl, rfl⟩, ?_⟩; decide

set_option maxRecDepth 4096 in
/-- OK and not OK are both met. -/
theorem witness_RtuAcceptance :
    idle (loaded 7 reply) ∧ (after (exec .validateRtu (loaded 7 reply))).map (·.result) = some .ok ∧
    (after (exec .validateRtu (loaded 6 reply))).map (·.result) ≠ some .ok := by
  refine ⟨⟨rfl, rfl⟩, ?_⟩; decide

/-- The reply of R142, and the same with bit 7 of its last byte changed. -/
theorem witness_OneBitCorruptionIsRejected :
    idle (loaded 7 reply) ∧ ∃ r : State, idle r ∧ r.rxLen = (loaded 7 reply).rxLen ∧ r.expUnit = (loaded 7 reply).expUnit ∧
      ∃ j k : Nat, j < (loaded 7 reply).rxLen.val ∧ k < 8 ∧ r.rxAt j = (loaded 7 reply).rxAt j ^^^ (1#8 <<< k) ∧
        ∀ i, i ≠ j → r.rxAt i = (loaded 7 reply).rxAt i := by
  refine ⟨⟨rfl, rfl⟩, (loaded 7 reply).setRx 6 0x1B#8, ⟨rfl, rfl⟩, rfl, rfl, 6, 7, by decide, by decide, by decide, ?_⟩
  intro i hi
  exact State.rxAt_setRx_other _ _ hi

theorem witness_HostLoadedFrameIsJudgedByItsBytes :
    State.reset.rstHigh = true ∧ idle State.reset ∧ ([] : List Byte).length ≤ 256 ∧ (List.replicate 256 0#8).length ≤ 256 :=
  ⟨rfl, ⟨rfl, rfl⟩, by decide, Nat.le_of_eq List.length_replicate⟩

theorem witness_ValidateTcpEffect :
    (receiving 0 []).status.rxact = true ∧ idle (loaded 7 adu) ∧ (loaded 7 adu).rxLen.val < 8 ∧ idle (loaded 8 adu) ∧
    8 ≤ (loaded 8 adu).rxLen.val := ⟨rfl, ⟨rfl, rfl⟩, by decide, ⟨rfl, rfl⟩, by decide⟩

/-- Each check fails somewhere, with those before it passing; and none fails on the ADU of R149. -/
theorem witness_TcpCheckOrder :
    idle (loaded 11 adu) ∧ (loaded 7 adu).rxLen.val < 8 ∧ (8 ≤ 11 ∧ ((loaded 11 adu).setRx 3 1#8).rxWord 2 ≠ 0x0000#16) ∧
    ((loaded 10 adu).rxWord 2 = 0x0000#16 ∧ ((loaded 10 adu).rxWord 4).toNat + 6 ≠ (loaded 10 adu).rxLen.val) ∧
    (((loaded 11 adu).rxWord 4).toNat + 6 = (loaded 11 adu).rxLen.val ∧
      (loaded 11 adu).rxAt 6 ≠ ({ loaded 11 adu with expUnit := 9#8 } : State).expUnit) ∧
    ((loaded 11 adu).rxAt 6 = (loaded 11 adu).expUnit ∧ ((loaded 11 adu).setRx 7 4#8).rxAt 7 ≠ 0x03#8) ∧
    (loaded 11 adu).rxAt 7 = 0x03#8 := by
  refine ⟨⟨rfl, rfl⟩, ?_⟩; decide

theorem witness_IllegalCommandsRecordTheError : 0x0008 ≤ (0x0008#16 : Word).toNat ∧ 0x0008 ≤ (0xFFFF#16 : Word).toNat := by decide

theorem witness_SoftResetRestoresAllButRx : (0x8001#16 : Word).getLsbD 15 = true := by decide

/-- A write that does not end a transfer, and one that ends it, in TX and in RX. -/
theorem witness_CtrlWriteConfiguresThePort :
    (0x001F#16 : Word).getLsbD 15 = false ∧
    ¬ ((sending 0).ctrl.en = true ∧ true = false ∧ ((sending 0).status.txact = true ∨ (sending 0).status.rxact = true)) ∧
    ((sending 0).ctrl.en = true ∧ (sending 0).status.txact = true) ∧
    ((receiving 0 []).ctrl.en = true ∧ (receiving 0 []).status.rxact = true) := by decide

/-- Each of the nine registers can be the one written. -/
theorem witness_PlainWritesStoreTheirBits (r : Reg) (v : Word) :
    (on (wr r v) State.reset).rstHigh = true ∧ (on (wr r v) State.reset).pending = wr r v :: [] := ⟨rfl, rfl⟩

/-- Refused in a window; accepted in IDLE and in TX. -/
theorem witness_ReceiverRegisterWrites (r : Reg) (v : Word) (i : Fin 256) :
    ((on (wr r v) (receiving 0 [])).rstHigh = true ∧ (on (wr r v) (receiving 0 [])).pending = wr r v :: [] ∧
      (on (wr r v) (receiving 0 [])).status.rxact = true) ∧
    ((on (wr r v) (sending 0)).pending = wr r v :: [] ∧ (on (wr r v) (sending 0)).status.rxact = false) ∧
    (on (.memWrite ⟨rxbufSlot i.val, v⟩) State.reset).pending = .memWrite ⟨rxbufSlot i.val, v⟩ :: [] :=
  ⟨⟨rfl, rfl, rfl⟩, ⟨rfl, rfl⟩, rfl⟩

theorem witness_StatusWriteClearsTheWrittenFlags :
    (on (wr .status 0x01F8#16) built).rstHigh = true ∧ (on (wr .status 0x01F8#16) built).pending = [wr .status 0x01F8#16] :=
  ⟨rfl, rfl⟩

theorem witness_ReadsHaveNoSideEffect :
    (on (.memRead 0x0FF#9) built).rstHigh = true ∧ (on (.memRead 0x0FF#9) built).pending = [.memRead 0x0FF#9] ∧
    0x048 ≤ (0x0FF#9 : SlotIdx).toNat ∧ (0x0FF#9 : SlotIdx).toNat ≤ 0x0FF := by decide

theorem witness_ReadsReturnTheFields :
    Inv { built with irqEn := 0x01F8#16 } ∧ (Baud.b9600, 0#3) ∈ [(Baud.b9600, 0#3), (.b115200, 4#3)] ∧
    built.ctrl.baud = .b9600 ∧ (ErrCode.txTimeout, 6#16) ∈ [(ErrCode.none, 0#16), (.txTimeout, 6#16)] ∧
    built.errCode = .none ∧ built.rxEnd = .none ∧ built.result = .none ∧
    (Memory.read reply 6 ≠ none ∧ Memory.read reply 7 = none) :=
  ⟨by constructor <;> decide, by decide⟩

/-- The greatest legal BAUD; a legal and an illegal RX_LEN and MAX_RX, in IDLE and in TX. -/
theorem witness_ReadAfterWriteReturnsTheBits :
    built.rstHigh = true ∧ built.status.rxact = false ∧ (sending 1).status.rxact = false ∧
    ((0x7FF3#16 : Word).getLsbD 15 = false ∧ ((0x7FF3#16 : Word).extractLsb' 2 3).toNat ≤ 4) ∧
    ((256#16 : Word).toNat ≤ 256 ∧ ¬ (257#16 : Word).toNat ≤ 256 ∧ ¬ 1 ≤ (0#16 : Word).toNat) := by decide

/-- The ends of the two reserved ranges, TXBUF, and a read-only register. -/
theorem witness_ReservedAndReadOnlyWritesAreIgnored :
    (0x021 ≤ (0x021#9 : SlotIdx).toNat ∧ (0x03F#9 : SlotIdx).toNat ≤ 0x03F) ∧
    (0x048 ≤ (0x048#9 : SlotIdx).toNat ∧ (0x0FF#9 : SlotIdx).toNat ≤ 0x0FF) ∧
    (0x013 < (0x014#9 : SlotIdx).toNat ∧ (0x020#9 : SlotIdx).toNat ≤ 0x020) ∧
    (on (.memRead 0x021#9) built).pending = [.memRead 0x021#9] ∧
    (on (.memWrite ⟨0x047#9, 1#16⟩) built).pending = [.memWrite ⟨0x047#9, 1#16⟩] := by decide

theorem witness_HardwareResetHoldsTheBlock :
    ((on (.rstN false) (sending 3)).rstHigh = true ∧ (on (.rstN false) (sending 3)).pending = [.rstN false]) ∧
    ((on .tick held).rstHigh = false ∧ (on .tick held).pending = [.tick] ∧ ∀ b, (.tick : Event) ≠ .rstN b) ∧
    ((on (.rstN true) held).rstHigh = false ∧ (on (.rstN true) held).pending = [.rstN true]) ∧ Inv held :=
  ⟨⟨rfl, rfl⟩, ⟨rfl, rfl, fun _ h => by cases h⟩, ⟨rfl, rfl⟩, inv_held⟩

/-- The first and the last byte due; no byte due; an accepted SEND; an open window. -/
theorem witness_OutputPortsFollowTheTransmitter :
    ((sending 0).status.txact = true ∧ (sending 0).txPos.val < 8) ∧ ((sending 7).status.txact = true ∧ (sending 7).txPos.val < 8) ∧
    built.status.txact = false ∧ (idle built ∧ built.ctrl.en = true ∧ built.txLen.val ≠ 0) ∧
    (Inv (receiving 0 []) ∧ (receiving 0 []).status.rxact = true) :=
  ⟨by decide, by decide, rfl, ⟨⟨rfl, rfl⟩, rfl, by decide⟩, inv_receiving_first, rfl⟩

end Sys2Proof.Tests
end

-- ==== Proofs: the invariant under every event (O8) ====
section
/-! The invariant `Inv`, one rule per operation of the state, then per instruction, per event and per run; and the run of
every list of events from reset (R63). -/

namespace Sys2Proof.Machine

/-! ## One rule per operation

Each rule names only the clauses that its operation can touch; the others are the old state's. An operation that runs finds `rst_n` high,
so the clause on the held block says nothing. -/

/-- The clause `heldReset` says nothing while `rst_n` is high. -/
theorem not_held {b : Bool} {p : Prop} (hi : b = true) : b = false → p :=
  fun h => absurd h (ne_false_of_eq_true hi)

/-- BUSY is set by either transfer (R24). -/
theorem State.busy_iff {s : State} : s.busy = true ↔ s.status.txact = true ∨ s.status.rxact = true := by
  simp [State.busy]

/-- With BUSY = 0 neither transfer is open (R58). -/
theorem State.idle_of_not_busy {s : State} (h : ¬ s.busy = true) : idle s := by
  simpa [State.busy_iff, idle] using h

theorem Inv.reset : Inv State.reset := by constructor <;> decide

section Operations

variable {s : State}

/-- The events to come are the agents', and `Inv` asks nothing of them (R79). -/
theorem Inv.setPending (hs : Inv s) (es : List Event) : Inv (s.setPending es) :=
  { hs with heldReset := fun h => by rw [hs.heldReset h]; rfl }

theorem Inv.setDone (hs : Inv s) (hi : s.rstHigh = true) : Inv s.setDone :=
  { hs with heldReset := not_held hi }

theorem Inv.setCrc (hs : Inv s) (hi : s.rstHigh = true) (c : Word) : Inv { s with crc := c } :=
  { hs with heldReset := not_held hi }

/-- An error sets ERR together with its code (R162). -/
theorem Inv.raiseError (hs : Inv s) (hi : s.rstHigh = true) (e : ErrCode) : Inv (s.raiseError e) :=
  { hs with
    noStaleCode := by simp
    heldReset := not_held hi }

/-- Clearing ERR clears ERR_CODE (R27). -/
theorem Inv.clearStatus (hs : Inv s) (hi : s.rstHigh = true) (v : Word) : Inv (s.clearStatus v) :=
  { hs with
    noStaleCode := fun h => by
      rw [State.clearStatus_status_err, Bool.and_eq_false_iff] at h
      rw [State.clearStatus_errCode]
      obtain h | h := h
      · simp [hs.noStaleCode h]
      · rw [if_pos (by simpa using h)]
    heldReset := not_held hi }

/-- The receiver is armed with no byte counted, and 0 is below every MAX_RX (R40, R125). -/
theorem Inv.armRx (hs : Inv s) (hi : s.rstHigh = true) (htx : s.status.txact = false) (hen : s.ctrl.en = true) :
    Inv s.armRx :=
  { hs with
    oneDirection := by simp [htx]
    windowOpen := fun _ => hs.maxRxPos
    busyEnabled := fun _ => hen
    windowFresh := fun _ => ⟨rfl, rfl⟩
    silenceZero := fun _ _ => rfl
    heldReset := not_held hi }

/-- Both transfers stopped: what speaks of an open one says nothing. -/
theorem Inv.abortTransfer (hs : Inv s) (hi : s.rstHigh = true) : Inv s.abortTransfer := by
  rw [State.abortTransfer_eq]
  exact { hs with
    oneDirection := by simp
    windowOpen := by simp
    sending := by simp
    busyEnabled := by simp [State.busy]
    windowFresh := by simp
    silenceZero := by simp
    heldReset := not_held hi }

/-- A new CTRL must leave EN set while a transfer is open (R23). -/
theorem Inv.setCtrl (hs : Inv s) (hi : s.rstHigh = true) (c : Ctrl) (hen : s.busy = true → c.en = true) :
    Inv { s with ctrl := c } :=
  { hs with
    busyEnabled := hen
    heldReset := not_held hi }

/-- Aborting does not read CTRL. -/
theorem State.abortTransfer_setCtrl (c : Ctrl) :
    State.abortTransfer { s with ctrl := c } = { s.abortTransfer with ctrl := c } := by
  simp only [State.abortTransfer_eq]

/-- The registers are at their reset values and RX is kept, so all but `rxWf` comes from reset (R158). -/
theorem Inv.softReset (hs : Inv s) (hi : s.rstHigh = true) : Inv s.softReset :=
  { Inv.reset with
    rxWf := hs.rxWf
    heldReset := not_held hi }

/-- While `rst_n` is low the block is at its reset values (R183). -/
theorem Inv.hardReset : Inv s.hardReset :=
  { Inv.reset with heldReset := fun _ => rfl }

/-! ## Line events and ticks -/

/-- `end_rx` closes the window: what speaks of an open one says nothing (R127). -/
theorem Inv.endRx (hs : Inv s) (hi : s.rstHigh = true) (r : RxEnd) : Inv (s.endRx r) :=
  { hs with
    oneDirection := by simp
    windowOpen := by simp
    busyEnabled := fun h => hs.busyEnabled (State.busy_iff.2 (.inl (by simpa [State.busy_iff] using h)))
    windowFresh := by simp
    silenceZero := by simp
    heldReset := not_held hi }

/-- A byte that is not the last leaves one due (R121). -/
theorem Inv.emitByte (hs : Inv s) (hi : s.rstHigh = true) (htx : s.status.txact = true) (hp : s.txPos.val < 8)
    (hne : (s.emitByte hp).txPos ≠ s.txLen) : Inv (s.emitByte hp) := by
  have hlt : s.txPos.val + 1 < s.txLen.val := by
    have := hs.sending htx
    have : s.txPos.val + 1 ≠ s.txLen.val := fun h => hne (Fin.ext h)
    omega
  exact { hs with
    txPosMax := Nat.le_of_lt hlt
    sending := fun _ => hlt
    heldReset := not_held hi }

/-- A byte taken and the transmission closed: no byte need be due after it (R121, R123). -/
theorem Inv.emitByte_endSend (hs : Inv s) (hi : s.rstHigh = true) (htx : s.status.txact = true)
    (hp : s.txPos.val < 8) : Inv (s.emitByte hp).endSend :=
  { hs with
    oneDirection := by simp
    txPosMax := hs.sending htx
    sending := by simp
    busyEnabled := fun _ => hs.busyEnabled (State.busy_iff.2 (.inl htx))
    heldReset := not_held hi }

/-- TxTake finds a byte of TX while TXACT = 1, and keeps the invariant (R121, R124). -/
theorem Inv.txTake (hs : Inv s) (hi : s.rstHigh = true) : ∃ t, txTake s = .next t ∧ Inv t := by
  unfold Machine.txTake
  split
  next htx =>
    have hp : s.txPos.val < 8 := by have := hs.sending htx; omega
    rw [dif_pos hp]
    refine ⟨_, rfl, ?_⟩
    split
    · have hend := hs.emitByte_endSend hi htx hp
      obtain ⟨-, h⟩ | ⟨-, h⟩ := txComplete_cases (s.emitByte hp) <;> rw [h]
      · exact hend.armRx hi rfl (hs.busyEnabled (State.busy_iff.2 (.inl htx)))
      · exact hend
    · next hne => exact hs.emitByte hi htx hp hne
  · exact ⟨s, rfl, hs⟩

/-- RX after a store keeps its canonical form. -/
theorem Inv.storeByte_rxWf (hs : Inv s) (b : Byte) (hp : s.rxLen.val < 256) :
    Memory.wf (s.storeByte b hp).rx = true :=
  Memory.write_wf b hp hs.rxWf

/-- A byte that does not fill the window leaves it open (R132, R133). -/
theorem Inv.storeByte (hs : Inv s) (hi : s.rstHigh = true) (hrx : s.status.rxact = true) (b : Byte)
    (hp : s.rxLen.val < 256) (hne : (s.storeByte b hp).rxLen ≠ s.maxRx) : Inv (s.storeByte b hp) := by
  have hlt : s.rxLen.val + 1 < s.maxRx.val := by
    have := hs.windowOpen hrx
    have : s.rxLen.val + 1 ≠ s.maxRx.val := fun h => hne (Fin.ext h)
    omega
  exact { hs with
    windowOpen := fun _ => hlt
    rxWf := hs.storeByte_rxWf b hp
    silenceZero := fun _ _ => rfl
    heldReset := not_held hi }

/-- RxByte finds room in RX while RXACT = 1, and keeps the invariant (R132 to R134). -/
theorem Inv.rxByte (hs : Inv s) (hi : s.rstHigh = true) (b : Byte) : ∃ t, rxByte b s = .next t ∧ Inv t := by
  unfold Machine.rxByte
  split
  next hrx =>
    have hp : s.rxLen.val < 256 := by have := hs.windowOpen hrx; omega
    rw [dif_pos hp]
    refine ⟨_, rfl, ?_⟩
    split
    · exact { hs.endRx hi .full with
        windowOpen := by simp
        rxWf := hs.storeByte_rxWf b hp
        silenceZero := by simp
        heldReset := not_held hi }
    · next hne => exact hs.storeByte hi hrx b hp hne
  · exact ⟨_, rfl, { hs with heldReset := not_held hi }⟩

theorem Inv.countTx (hs : Inv s) (hi : s.rstHigh = true) : Inv s.countTx :=
  { hs with heldReset := not_held hi }

/-- RX_SILENCE does not count before the first byte (R129). -/
theorem Inv.countRx (hs : Inv s) (hi : s.rstHigh = true) : Inv s.countRx :=
  { hs with
    silenceZero := fun hrx h0 => by
      rw [State.countRx_rxLen] at h0
      simpa [h0] using hs.silenceZero hrx h0
    heldReset := not_held hi }

/-- The write timeout stops the transfer and sets ERR together with its code (R138). -/
theorem Inv.endTxTimeout (hs : Inv s) (hi : s.rstHigh = true) : Inv s.endTxTimeout :=
  { hs with
    oneDirection := by simp
    sending := by simp
    noStaleCode := by simp
    busyEnabled := fun h => hs.busyEnabled (State.busy_iff.2 (.inr (by simpa [State.busy_iff] using h)))
    heldReset := not_held hi }

/-- A tick keeps the invariant (R128). -/
theorem Inv.tick (hs : Inv s) (hi : s.rstHigh = true) : Inv (tick s) := by
  obtain ⟨-, h | h⟩ | ⟨-, -, h | ⟨r, -, h⟩⟩ | ⟨-, -, h⟩ := tick_cases s <;> rw [h]
  · exact hs.countTx hi
  · exact (hs.countTx hi).endTxTimeout hi
  · exact hs.countRx hi
  · exact (hs.countRx hi).endRx hi r
  · exact hs

/-! ## Instructions -/

/-- BUILD fills TX to 8 bytes, and only while no transfer is open (R115). -/
theorem Inv.execBuild (hs : Inv s) (hi : s.rstHigh = true) : ∃ t, execBuild s = .next t ∧ Inv t := by
  unfold Machine.execBuild
  split
  · exact ⟨_, rfl, hs.raiseError hi _⟩
  next hb =>
    obtain ⟨htx, -⟩ := State.idle_of_not_busy hb
    split
    · exact ⟨_, rfl, hs.raiseError hi _⟩
    · split
      · exact ⟨_, rfl, hs.raiseError hi _⟩
      · exact ⟨_, rfl, { hs with
          txPosMax := Nat.le_of_lt_succ s.txPos.isLt
          sending := by simp [htx]
          txLenValues := .inr rfl
          heldReset := not_held hi }⟩

/-- SEND starts at TX[0] of a frame that is not empty, while no window is open (R120). -/
theorem Inv.execSend (hs : Inv s) (hi : s.rstHigh = true) : ∃ t, execSend s = .next t ∧ Inv t := by
  unfold Machine.execSend
  split
  · exact ⟨_, rfl, hs.raiseError hi _⟩
  next hb =>
    obtain ⟨-, hrx⟩ := State.idle_of_not_busy hb
    split
    · exact ⟨_, rfl, hs.raiseError hi _⟩
    next hen =>
      split
      · exact ⟨_, rfl, hs.raiseError hi _⟩
      next hlen =>
        exact ⟨_, rfl, { hs with
          oneDirection := by simp [hrx]
          txPosMax := Nat.zero_le _
          sending := fun _ => Fin.pos_iff_ne_zero.2 hlen
          busyEnabled := fun _ => by simpa using hen
          heldReset := not_held hi }⟩

/-- RECV arms the receiver while no transfer is open (R126). -/
theorem Inv.execRecv (hs : Inv s) (hi : s.rstHigh = true) : ∃ t, execRecv s = .next t ∧ Inv t := by
  unfold Machine.execRecv
  split
  · exact ⟨_, rfl, hs.raiseError hi _⟩
  next hb =>
    split
    · exact ⟨_, rfl, hs.raiseError hi _⟩
    next hen =>
      exact ⟨_, rfl, hs.armRx hi (State.idle_of_not_busy hb).1 (by simpa using hen)⟩

/-- A validation writes RESULT only while no window is open (R142). -/
theorem Inv.execValidateRtu (hs : Inv s) (hi : s.rstHigh = true) : ∃ t, execValidateRtu s = .next t ∧ Inv t := by
  unfold Machine.execValidateRtu
  split
  · exact ⟨_, rfl, hs.raiseError hi _⟩
  next hb =>
    obtain ⟨-, hrx⟩ := State.idle_of_not_busy hb
    dsimp only
    split <;> exact ⟨_, rfl, { hs with
      windowFresh := by simp [hrx]
      heldReset := not_held hi }⟩

/-- A validation writes RESULT only while no window is open (R149). -/
theorem Inv.execValidateTcp (hs : Inv s) (hi : s.rstHigh = true) : ∃ t, execValidateTcp s = .next t ∧ Inv t := by
  unfold Machine.execValidateTcp
  split
  · exact ⟨_, rfl, hs.raiseError hi _⟩
  next hb =>
    obtain ⟨-, hrx⟩ := State.idle_of_not_busy hb
    dsimp only
    split <;> exact ⟨_, rfl, { hs with
      windowFresh := by simp [hrx]
      heldReset := not_held hi }⟩

/-- Clearing EN while BUSY stops the transfer, so none is open without EN (R159). -/
theorem Inv.execCtrlWrite (hs : Inv s) (hi : s.rstHigh = true) (en autorx : Bool) (baud : BitVec 3) :
    ∃ t, execCtrlWrite en autorx baud s = .next t ∧ Inv t := by
  unfold Machine.execCtrlWrite
  dsimp only
  split
  · rw [State.abortTransfer_setCtrl]
    exact ⟨_, rfl, ((hs.abortTransfer hi).setCtrl (by simpa) _ (by simp [State.busy])).setDone (by simpa)⟩
  next h =>
    refine ⟨_, rfl, hs.setCtrl hi _ fun hb => ?_⟩
    simpa [hb, hs.busyEnabled hb] using h

/-- Every instruction completes and keeps the invariant. -/
theorem Inv.exec (hs : Inv s) (hi : s.rstHigh = true) (i : Instr) : ∃ t, exec i s = .next t ∧ Inv t := by
  cases i with
  | nop => exact ⟨_, rfl, hs⟩
  | crcInit => exact ⟨_, rfl, (hs.setCrc hi _).setDone hi⟩
  | build => exact hs.execBuild hi
  | send => exact hs.execSend hi
  | recv => exact hs.execRecv hi
  | validateRtu => exact hs.execValidateRtu hi
  | validateTcp => exact hs.execValidateTcp hi
  | abort => exact ⟨_, rfl, (hs.abortTransfer hi).setDone (by simpa)⟩
  | crcUpdate d => exact ⟨_, rfl, hs.setCrc hi _⟩
  | crcWrite v => exact ⟨_, rfl, hs.setCrc hi v⟩
  | softReset => exact ⟨_, rfl, hs.softReset hi⟩
  | ctrlWrite en autorx baud => exact hs.execCtrlWrite hi en autorx baud
  | illegalCmd v => exact ⟨_, rfl, hs.raiseError hi _⟩

/-! ## Plain register writes -/

/-- RX_LEN is written only while no window is open (R39). -/
theorem Inv.writeRxLen (hs : Inv s) (hi : s.rstHigh = true) (v : Word) : Inv (s.writeRxLen v) := by
  unfold State.writeRxLen
  split
  · exact hs.raiseError hi _
  next hrx =>
    split
    · exact { hs with
        windowOpen := fun h => absurd h hrx
        silenceZero := fun h => absurd h hrx
        heldReset := not_held hi }
    · exact hs

/-- MAX_RX is written with 1..256, and only while no window is open (R40). -/
theorem Inv.writeMaxRx (hs : Inv s) (hi : s.rstHigh = true) (v : Word) : Inv (s.writeMaxRx v) := by
  unfold State.writeMaxRx
  split
  · exact hs.raiseError hi _
  next hrx =>
    split
    next hv =>
      exact { hs with
        windowOpen := fun h => absurd h hrx
        maxRxPos := hv.1
        heldReset := not_held hi }
    · exact hs

theorem Inv.writeRxbuf (hs : Inv s) (hi : s.rstHigh = true) (i : Fin 256) (b : Byte) : Inv (s.writeRxbuf i b) := by
  unfold State.writeRxbuf
  split
  · exact hs.raiseError hi _
  · exact { hs with
      rxWf := Memory.write_wf b i.isLt hs.rxWf
      heldReset := not_held hi }

/-- Every plain register write keeps the invariant (R69). -/
theorem Inv.writePlain (hs : Inv s) (hi : s.rstHigh = true) (p : PlainWrite) : Inv (s.writePlain p) := by
  cases p with
  | status v => exact hs.clearStatus hi v
  | irqEn v =>
    exact { hs with
      irqEnBits := by simp [State.writePlain, BitVec.and_assoc]
      heldReset := not_held hi }
  | rxLen v => exact hs.writeRxLen hi v
  | maxRx v => exact hs.writeMaxRx hi v
  | rxbuf i b => exact hs.writeRxbuf hi i b
  | ignored => exact hs
  | unitId | func | startAddr | quantity | expUnit | txTimeout | rxTimeout | gapTicks =>
    exact { hs with heldReset := not_held hi }

/-! ## Events and runs -/

/-- A fall of `rst_n` resets the block, and a rise lets it run on (R183). -/
theorem Inv.resetPin (hs : Inv s) (level : Bool) : Inv (resetPin level s) := by
  unfold Machine.resetPin
  split
  · exact { hs with heldReset := not_held rfl }
  · split
    · exact Inv.hardReset
    · exact hs

/-- With `rst_n` high, every event runs to a next state and keeps the invariant. -/
theorem Inv.runEvent (hs : Inv s) (hi : s.rstHigh = true) (e : Event) : ∃ t, runEvent e s = .next t ∧ Inv t := by
  cases e with
  | memWrite w =>
    unfold Machine.runEvent hostWrite
    dsimp only
    split
    · exact hs.exec hi _
    · exact ⟨_, rfl, hs.writePlain hi _⟩
  | memRead idx => exact ⟨_, rfl, { hs with heldReset := not_held hi }⟩
  | txTake => exact hs.txTake hi
  | rxByte b => exact hs.rxByte hi b
  | tick => exact ⟨_, rfl, hs.tick hi⟩
  | rstN level => exact ⟨_, rfl, hs.resetPin level⟩

/-- With `rst_n` low, every event keeps the invariant: a read gives the reset value of `bus_rdata` (R183). -/
theorem Inv.heldEvent (hs : Inv s) (e : Event) : Inv (heldEvent e s) := by
  cases e with
  | memRead idx => exact { hs with heldReset := fun h => by rw [hs.heldReset h]; rfl }
  | rstN level => exact hs.resetPin level
  | memWrite | txTake | rxByte | tick => exact hs

/-- Every event is taken without a stop and keeps the invariant. -/
theorem Inv.takeEvent (hs : Inv s) (e : Event) : ∃ t, takeEvent e s = .next t ∧ Inv t := by
  cases hi : s.rstHigh with
  | true => rw [takeEvent_high e hi]; exact hs.runEvent hi e
  | false => exact ⟨_, takeEvent_low e hi, hs.heldEvent e⟩

/-- Every list of events runs to its end and keeps the invariant (R79). -/
theorem Inv.afterEvents (hs : Inv s) (es : List Event) : ∃ t, afterEvents es s = .next t ∧ Inv t := by
  induction es generalizing s with
  | nil => exact ⟨_, afterEvents_nil s, hs.setPending []⟩
  | cons e es ih =>
    obtain ⟨t, ht, hit⟩ := (hs.setPending es).takeEvent e
    rw [afterEvents_cons ht]
    exact ih hit

/-- The invariant implies those of R63. -/
theorem Inv.spec (hs : Inv s) : SpecInvariants s where
  oneDirection := hs.oneDirection
  busyBit := by rw [State.getLsbD_statusWord]; simp [State.busy]
  windowOpen := fun h => Nat.le_of_lt (hs.windowOpen h)
  rxLenMax := Nat.le_of_lt_succ s.rxLen.isLt
  maxRxRange := ⟨hs.maxRxPos, Nat.le_of_lt_succ s.maxRx.isLt⟩
  txPosMax := hs.txPosMax
  txLenValues := hs.txLenValues
  noStaleCode := hs.noStaleCode

end Operations

/-- Settles O8: reset meets `Inv`, every run of events keeps it, and it implies R63. -/
theorem everyInterleavingKeepsTheSpecInvariants : Obligations.EveryInterleavingKeepsTheSpecInvariants := by
  intro es
  obtain ⟨t, ht, hit⟩ := Inv.reset.afterEvents es
  exact ⟨t, ht, hit.spec⟩

end Sys2Proof.Machine
end

-- ==== Proofs: host reads (O51) ====
section
/-! What a host read does to the block (R68): one law of the step that takes it, the fields that a read depends on, and the
values of the slots that R68 names. -/

namespace Sys2Proof.Machine

/-! ## What the slots name -/

/-- No register stands above TCP_PORT, the last of R22. -/
theorem regAt_eq_none {n : Nat} (h : 0x020 < n) : regAt n = none := by
  rw [regAt] <;> omega

/-- 0x021..0x03F and 0x048..0x0FF name no register and no byte of a buffer (R70). -/
theorem slotOf_reserved {idx : SlotIdx}
    (h : (0x021 ≤ idx.toNat ∧ idx.toNat ≤ 0x03F) ∨ (0x048 ≤ idx.toNat ∧ idx.toNat ≤ 0x0FF)) :
    slotOf idx = .reserved := by
  have hrxbuf : ¬ 0x100 ≤ idx.toNat := by omega
  have htxbuf : ¬ (0x040 ≤ idx.toNat ∧ idx.toNat < 0x048) := by omega
  have hreg : regAt idx.toNat = none := regAt_eq_none (by omega)
  simp only [slotOf, hrxbuf, htxbuf, hreg, if_false, dif_neg, not_false_eq_true]

/-! ## What a read returns -/

section Reads

variable {s : State}

/-- A slot's value depends on neither the events to come nor the last value on the bus (R68). -/
theorem State.readSlot_setPending_busRdata (es : List Event) (v : Word) (sl : Slot) :
    { s with pending := es, busRdata := v }.readSlot sl = s.readSlot sl := by
  cases sl with
  | reg r => cases r <;> rfl
  | txbuf i => rfl
  | rxbuf i => rfl
  | reserved => rfl

/-- CTRL bit 15, the bit of SRST, reads 0 (R23, R68). -/
theorem State.readSlot_ctrl_srst : (s.readSlot (slotOf Reg.ctrl.slot)).getLsbD 15 = false := by
  rw [slotOf_reg, State.readSlot, State.readReg, Ctrl.word_eq]
  simp only [BitVec.getLsbD_append]
  simp

/-- STATUS bit 0 reads BUSY (R24, R68). -/
theorem State.readSlot_status_busy :
    (s.readSlot (slotOf Reg.status.slot)).getLsbD 0 = (s.status.txact || s.status.rxact) := by
  rw [slotOf_reg, State.readSlot, State.readReg, State.getLsbD_statusWord]
  simp [State.busy]

/-- A reserved slot reads 0 (R70). -/
theorem State.readSlot_reserved {idx : SlotIdx}
    (h : (0x021 ≤ idx.toNat ∧ idx.toNat ≤ 0x03F) ∨ (0x048 ≤ idx.toNat ∧ idx.toNat ≤ 0x0FF)) :
    s.readSlot (slotOf idx) = 0x0000#16 := by
  rw [slotOf_reserved h, State.readSlot]

/-- With `rst_n` high, a read puts the slot's value on the bus, and that is all it does (R68). -/
theorem step_memRead {idx : SlotIdx} {rest : List Event} (hi : s.rstHigh = true)
    (h : s.pending = .memRead idx :: rest) :
    step s = .next { s with pending := rest, busRdata := s.readSlot (slotOf idx) } := by
  have hread : (s.setPending rest).readSlot (slotOf idx) = s.readSlot (slotOf idx) :=
    State.readSlot_setPending_busRdata rest s.busRdata (slotOf idx)
  rw [step_event h, takeEvent_high (s := s.setPending rest) _ hi, ← hread]
  rfl

end Reads

/-- Settles O51: a read writes only the bus, and the value it puts there does not depend on what the bus held. -/
theorem readsHaveNoSideEffect : Obligations.ReadsHaveNoSideEffect := by
  intro s idx rest hi h
  refine ⟨s.readSlot (slotOf idx), step_memRead hi h, ?again, rfl, ?zero, ?srst, ?busy, State.readSlot_reserved⟩
  case again =>
    have hstep := step_memRead (s := { s with busRdata := s.readSlot (slotOf idx) }) hi h
    rwa [State.readSlot_setPending_busRdata] at hstep
  case zero => rintro (rfl | rfl) <;> rfl
  case srst => rintro rfl; exact State.readSlot_ctrl_srst
  case busy => rintro rfl; exact State.readSlot_status_busy

end Sys2Proof.Machine
end

-- ==== Proofs: the acting writes (O2, O44) ====
section
/-! What a value written to CMD and to CTRL decodes to, one law per range of values (R87, R88, R90), and the effect of an
illegal command (R88). -/

namespace Sys2Proof.Machine

section ActingWrites

variable {v : Word}

/-- The eight commands stand below 0x0008; every value from there on is illegal (R88). -/
theorem decodeCmd_illegal (h : 0x0008 ≤ v.toNat) : decodeCmd v = .illegalCmd v := by
  unfold decodeCmd
  split
  case h_9 => rfl
  all_goals omega

/-- Bit 15, SRST, makes a CTRL write SOFT_RESET, whatever the other bits are (R90). -/
theorem decodeCtrl_softReset (h : v.getLsbD 15 = true) : decodeCtrl v = .softReset :=
  if_pos h

/-- Without SRST a CTRL write configures the port (R90). -/
theorem decodeCtrl_ctrlWrite (h : v.getLsbD 15 = false) :
    decodeCtrl v = .ctrlWrite (v.getLsbD 0) (v.getLsbD 1) (v.extractLsb' 2 3) :=
  if_neg (Bool.eq_false_iff.mp h)

end ActingWrites

/-- An illegal command raises ILLEGAL_CMD, in every state (R88, R163). -/
theorem exec_illegalCmd (v : Word) (s : State) : exec (.illegalCmd v) s = .next (s.raiseError .illegalCmd) := rfl

/-- Settles O2: a CMD value that is none of the eight commands is at least 0x0008, and bit 15 splits the CTRL values. -/
theorem everyActingWriteDecodesToOneOperation : Obligations.EveryActingWriteDecodesToOneOperation := by
  refine ⟨fun v => ?cmd, decode_crcData, fun v h => ?softReset, fun v h => ?ctrlWrite⟩
  case cmd =>
    rw [decode_cmd]
    iterate 8
      split
      · subst v; rfl
    have hv : 0x0008 ≤ v.toNat := by bv_omega
    rw [decodeCmd_illegal hv]
  case softReset => rw [decode_ctrl, decodeCtrl_softReset h]
  case ctrlWrite => rw [decode_ctrl, decodeCtrl_ctrlWrite h]

/-- Settles O44: the decoder answers the illegal command, and raising its error writes ERR_CODE and ERR only. -/
theorem illegalCommandsRecordTheError : Obligations.IllegalCommandsRecordTheError := by
  intro v s hv
  refine ⟨by rw [decode_cmd, decodeCmd_illegal hv], ?_⟩
  rw [exec_illegalCmd, State.raiseError]

end Sys2Proof.Machine
end

-- ==== Proofs: the CRC engine (O17, O18, O19, O20, O21, O22) ====
section
/-! The CRC engine (spec/40_crc.md): what its three operations do, by instruction and by bus write (R107 to R109, R113); that
no two registers and no two bytes lead to the same register, which gives R111; and that a register loses its own two bytes to
0, which gives R112. -/

namespace Sys2Proof.Machine

/-! ## The operations -/

/-- CRC_INIT, in every state (R107). -/
theorem exec_crcInit (s : State) :
    exec .crcInit s = .next { s with crc := 0xFFFF#16, status := { s.status with done := true } } := rfl

/-- CRC_UPDATE, in every state (R108). -/
theorem exec_crcUpdate (d : Byte) (s : State) : exec (.crcUpdate d) s = .next { s with crc := crcStep s.crc d } := rfl

/-- The CRC write, in every state (R109). -/
theorem exec_crcWrite (v : Word) (s : State) : exec (.crcWrite v) s = .next { s with crc := v } := rfl

/-- A loop that does not look at its counter makes as many passes as the counter has values (R106). -/
theorem foldl_crcBit {α : Type} (l : List α) (c : Word) : l.foldl (fun c _ => crcBit c) c = crcBits l.length c := by
  induction l generalizing c with
  | nil => rfl
  | cons _ l ih => exact ih (crcBit c)

/-- `crc_step` as the statements write it is the model's (R106). -/
theorem specCrcStep_eq_crcStep : specCrcStep = crcStep := by
  funext c b
  exact foldl_crcBit (List.range 8) (c ^^^ b.setWidth 16)

/-- The loop of R105 over a joined sequence (R113). -/
theorem crc16_append (s t : List Byte) : crc16 (s ++ t) = crcFrom (crc16 s) t :=
  crcFrom_append 0xFFFF#16 s t

/-- Settles O17: the decoder answers CRC_INIT, and its effect is one equation. -/
theorem crcInitSetsTheInitialValue : Obligations.CrcInitSetsTheInitialValue :=
  ⟨decode_cmd 0x0001#16, exec_crcInit⟩

/-- Settles O18: the byte is the low byte of the value, and the two ways to write `crc_step` agree. -/
theorem crcUpdateAdvancesByOneByte : Obligations.CrcUpdateAdvancesByOneByte := by
  rw [Obligations.CrcUpdateAdvancesByOneByte, specCrcStep_eq_crcStep]
  refine ⟨fun v s => ⟨loByte v, decode_crcData v, ?lowByte, exec_crcUpdate (loByte v) s⟩, fun bs => rfl, ?values⟩
  case lowByte => simp [loByte]
  case values => exact ⟨rfl, rfl, rfl⟩

/-- Settles O19: the decoder answers the CRC write, and the example of R109 goes byte by byte through the register. -/
theorem crcWriteStoresTheValue : Obligations.CrcWriteStoresTheValue := by
  rw [Obligations.CrcWriteStoresTheValue, specCrcStep_eq_crcStep]
  have hfirst : crcStep 0xFFFF#16 0x01#8 = 0x807E#16 := by decide
  have hsecond : crcStep 0x807E#16 0x03#8 = 0x2140#16 := by decide
  refine ⟨fun v s => ⟨decode_crc v, exec_crcWrite v s⟩, hsecond, ?_⟩
  rw [crc16, crcFrom_cons, crcFrom_cons, crcFrom_nil, hfirst, hsecond]

/-! ## Runs of bus writes -/

section Runs

variable {s : State}

/-- With `rst_n` high, the bus write of an instruction executes it (R69). -/
theorem takeEvent_instr {w : BusWrite} {i : Instr} (hi : s.rstHigh = true) (h : decode w = .instr i) :
    takeEvent (.memWrite w) s = exec i s := by
  rw [takeEvent_high _ hi, runEvent, hostWrite, h]

/-- A run takes the bus write of an instruction by executing it (R69, R79). -/
theorem afterEvents_cons_instr {w : BusWrite} {i : Instr} {es : List Event} {t : State} (hi : s.rstHigh = true)
    (hd : decode w = .instr i) (hx : exec i (s.setPending es) = .next t) :
    afterEvents (.memWrite w :: es) s = afterEvents es t :=
  afterEvents_cons ((takeEvent_instr (s := s.setPending es) hi hd).trans hx)

/-- k bytes written to CRC_DATA run the loop of R105 over them, from the CRC that stands there (R108, R113). -/
theorem afterEvents_crcDataWrites (bs : List Byte) (hi : s.rstHigh = true) :
    afterEvents (bs.map fun b => wr .crcData (b.setWidth 16)) s =
      .next { s with pending := [], crc := crcFrom s.crc bs } := by
  induction bs generalizing s with
  | nil => exact afterEvents_nil s
  | cons b bs ih =>
    have hd : decode ⟨0x00B#9, b.setWidth 16⟩ = .instr (.crcUpdate b) := by rw [decode_crcData, loByte_setWidth]
    exact (afterEvents_cons_instr hi hd (exec_crcUpdate b _)).trans (ih hi)

end Runs

/-- Settles O20: after its first write each run is one of CRC_DATA writes, from the CRC which that write left. -/
theorem crcWritesAccumulateTheCrc : Obligations.CrcWritesAccumulateTheCrc := by
  refine ⟨crc16_append, fun s bs hi => ?init, fun s as bs hi => ?resume⟩
  case init =>
    exact (afterEvents_cons_instr hi (decode_cmd 0x0001#16) (exec_crcInit _)).trans (afterEvents_crcDataWrites bs hi)
  case resume =>
    rw [crc16_append]
    exact (afterEvents_cons_instr hi (decode_crc _) (exec_crcWrite _ _)).trans (afterEvents_crcDataWrites bs hi)

/-! ## No information is lost

Bit 15 of a pass's result tells whether the constant was XORed in, so a pass can be undone; then so can the whole loop. -/

/-- The shift clears bit 15 and 0xA001 has it set, so it tells the low bit that was tested (R106). -/
theorem getLsbD_crcBit_fifteen (c : Word) : (crcBit c).getLsbD 15 = c.getLsbD 0 := by
  rw [crcBit]
  split
  next h => simpa using h.symm
  next h => simpa using h

theorem crcBit_injective : Function.Injective crcBit := by
  intro c d h
  have hlow : c.getLsbD 0 = d.getLsbD 0 := by rw [← getLsbD_crcBit_fifteen, h, getLsbD_crcBit_fifteen]
  have hshift : c >>> 1 = d >>> 1 := by
    rw [crcBit, crcBit, hlow] at h
    split at h
    · exact (BitVec.xor_left_inj _).mp h
    · exact h
  apply BitVec.eq_of_getLsbD_eq
  rintro (_ | i) -
  · exact hlow
  · simpa [Nat.add_comm] using congrArg (·.getLsbD i) hshift

theorem crcBits_injective (n : Nat) : Function.Injective (crcBits n) := by
  induction n with
  | zero => exact Function.injective_id
  | succ n ih => exact ih.comp crcBit_injective

/-- Over one byte, different registers stay different. -/
theorem crcStep_left_injective (b : Byte) : Function.Injective (crcStep · b) :=
  fun _ _ h => (BitVec.xor_left_inj _).mp (crcBits_injective 8 h)

/-- From one register, different bytes lead to different registers. -/
theorem crcStep_right_injective (c : Word) : Function.Injective (crcStep c) := by
  intro a b h
  have hwide : a.setWidth 16 = b.setWidth 16 := (BitVec.xor_right_inj _).mp (crcBits_injective 8 h)
  rw [← loByte_setWidth a, hwide, loByte_setWidth]

/-- Over one sequence, different registers stay different. -/
theorem crcFrom_left_injective (s : List Byte) : Function.Injective (crcFrom · s) := by
  induction s with
  | nil => exact Function.injective_id
  | cons b s ih => exact ih.comp (crcStep_left_injective b)

/-- Changing one byte of a sequence changes its CRC. -/
theorem crc16_ne_of_byte_ne (front back : List Byte) {a b : Byte} (h : a ≠ b) :
    crc16 (front ++ a :: back) ≠ crc16 (front ++ b :: back) := by
  rw [crc16_append, crc16_append, crcFrom_cons, crcFrom_cons]
  exact (crcFrom_left_injective back).ne ((crcStep_right_injective (crc16 front)).ne h)

/-- A byte with one bit flipped is another byte. -/
theorem xor_bit_ne (b : Byte) {k : Nat} (hk : k < 8) : b ^^^ (1#8 <<< k) ≠ b := by
  intro h
  have hbit := congrArg (·.getLsbD k) h
  simp [hk] at hbit

/-- Settles O21: a flipped bit makes another byte, and another byte makes another CRC. -/
theorem singleBitChangesAlterTheCrc : Obligations.SingleBitChangesAlterTheCrc :=
  fun front back b _ hk => crc16_ne_of_byte_ne front back (xor_bit_ne b hk)

/-! ## The residue

The low byte of the register cancels against itself, and eight passes shift the high byte down; that one cancels too. -/

/-- Passes over bits that are 0 only shift (R106). -/
theorem crcBits_of_low_bits_zero {n : Nat} {c : Word} (h : ∀ i < n, c.getLsbD i = false) : crcBits n c = c >>> n := by
  induction n generalizing c with
  | zero => simp [crcBits]
  | succ n ih =>
    have hbit : crcBit c = c >>> 1 := if_neg (Bool.eq_false_iff.mp (h 0 n.succ_pos))
    have hrest : ∀ i < n, (c >>> 1).getLsbD i = false := fun i hi => by
      simpa [Nat.add_comm] using h (i + 1) (Nat.succ_lt_succ hi)
    rw [crcBits, hbit, ih hrest, ← BitVec.shiftRight_add, Nat.add_comm]

/-- A register that takes its own low byte is left with its high byte. -/
theorem crcStep_loByte (c : Word) : crcStep c (loByte c) = (hiByte c).setWidth 16 := by
  have hlow : ∀ i < 8, (c ^^^ (loByte c).setWidth 16).getLsbD i = false := fun i hi => by
    have hi' : i < 16 := by omega
    simp [loByte, hi, hi']
  rw [crcStep, crcBits_of_low_bits_zero hlow]
  apply BitVec.eq_of_getLsbD_eq
  intro i hi
  have hhigh : c.getLsbD (8 + i) = true → i < 8 := fun h => by
    have := BitVec.lt_of_getLsbD h
    omega
  simpa [loByte, hiByte, hi] using hhigh

/-- A register that holds a byte and takes it is left with 0. -/
theorem crcStep_setWidth_self (b : Byte) : crcStep (b.setWidth 16) b = 0x0000#16 := by
  rw [crcStep, BitVec.xor_self]
  decide

/-- A register that takes its own two bytes, low byte first, is left with 0. -/
theorem crcFrom_lo_hi (c : Word) : crcFrom c [loByte c, hiByte c] = 0x0000#16 := by
  rw [crcFrom_cons, crcFrom_cons, crcFrom_nil, crcStep_loByte, crcStep_setWidth_self]

/-- Settles O22: the CRC of the sequence is the register that takes its own two bytes. -/
theorem sequenceWithItsCrcHasZeroResidue : Obligations.SequenceWithItsCrcHasZeroResidue := by
  intro s
  rw [crc16_append]
  exact crcFrom_lo_hi (crc16 s)

end Sys2Proof.Machine
end

-- ==== Proofs: the request encoder (O23, O24) ====
section
/-! The request encoder (spec/41_encoder.md): one law per branch of BUILD (R115), the parts of the frame it writes, and what
VALIDATE_RTU answers for a frame in RX, which together give R119. -/

namespace Sys2Proof.Machine

/-! ## BUILD -/

/-- The unit IDs that BUILD accepts (R116). -/
theorem unitInRange_iff {u : Byte} : unitInRange u = true ↔ 1 ≤ u.toNat ∧ u.toNat ≤ 247 := by
  simp [unitInRange]

section Build

variable {s : State}

/-- With no transfer open, BUSY is 0 (R24). -/
theorem State.not_busy_of_idle (h : idle s) : ¬ s.busy = true := by
  obtain ⟨htx, hrx⟩ := h
  simp [State.busy, htx, hrx]

theorem exec_build_busy (hb : s.busy = true) : exec .build s = .next (s.raiseError .busy) :=
  if_pos hb

/-- The two checks behind BUSY answer with the same error (R115). -/
theorem exec_build_cfgErr (hs : idle s) (h : unitInRange s.unitId = true → s.func ≠ Config.readFunction) :
    exec .build s = .next (s.raiseError .cfgErr) := by
  rw [exec, execBuild, if_neg (State.not_busy_of_idle hs)]
  split
  · rfl
  next hu => exact if_pos (h (by simpa using hu))

/-- Past its checks BUILD writes the request with the CRC of its six bytes (R115). -/
theorem exec_build_accepted (hs : idle s) (hu : unitInRange s.unitId = true) (hf : s.func = Config.readFunction) :
    exec .build s = .next (State.setDone { s with
      tx := s.requestFrame (crc16 s.requestHead), txLen := 8, crc := crc16 s.requestHead }) := by
  rw [exec, execBuild, if_neg (State.not_busy_of_idle hs), if_neg (by simp [hu]), if_neg (not_not_intro hf)]

end Build

/-- Settles O23: one law per branch, and in an accepted request the function code is 3. -/
theorem buildEffect : Obligations.BuildEffect := by
  refine ⟨decode_cmd 0x0002#16, fun s => ⟨fun hb => ?busy, fun hs h => ?cfgErr, fun hs h1 h247 hf => ?accepted⟩⟩
  case busy => exact exec_build_busy (State.busy_iff.2 hb)
  case cfgErr =>
    refine exec_build_cfgErr hs fun hu => ?_
    obtain ⟨h1, h247⟩ := unitInRange_iff.1 hu
    obtain h | h | h := h
    · omega
    · omega
    · exact h
  case accepted =>
    intro head c
    have hhead : s.requestHead = head := by rw [State.requestHead, hf]; rfl
    rw [exec_build_accepted hs (unitInRange_iff.2 ⟨h1, h247⟩) hf, hhead, State.requestFrame, hf]
    rfl

/-! ## The frame in TX -/

section Frame

variable (s : State) (c : Word)

/-- The request's bytes stand before its CRC (R91). -/
theorem State.take_requestFrame : (s.requestFrame c).toList.take 6 = s.requestHead := rfl

/-- The CRC stands behind them, low byte first (R93). -/
theorem State.crc_requestFrame : catBytes (s.requestFrame c)[7] (s.requestFrame c)[6] = c :=
  catBytes_hi_lo c

end Frame

/-! ## VALIDATE_RTU -/

section Validate

variable {r : State} {n : Nat}

/-- A frame is accepted when its unit, its function code and its CRC are right (R144). -/
theorem State.rtuVerdict_ok (hu : r.rxAt 0 = r.expUnit) (hf : r.rxAt 1 = Config.readFunction)
    (hc : r.computedCrc n = r.receivedCrc n) : r.rtuVerdict n = .ok := by
  rw [State.rtuVerdict, if_neg (not_not_intro hu), if_neg (not_not_intro hf), if_neg (not_not_intro hc)]

/-- RESULT and PAY_LEN after a frame that is not short: all but its first two and last two bytes are payload if it is
accepted (R142, R144). -/
theorem exec_validateRtu_verdict (hr : idle r) (hn : 4 ≤ r.rxLen.val) :
    ∃ r', exec .validateRtu r = .next r' ∧ r'.result = r.rtuVerdict r.rxLen.val ∧
      r'.payLen = if r.rtuVerdict r.rxLen.val = .ok then BitVec.ofNat 9 (r.rxLen.val - 4) else 0#9 := by
  rw [exec, execValidateRtu, if_neg (State.not_busy_of_idle hr)]
  dsimp only
  rw [if_neg (Nat.not_lt.2 hn)]
  exact ⟨_, rfl, rfl, rfl⟩

/-- If RX holds the bytes of a vector, its first bytes are the vector's. -/
theorem State.rxBytes_eq_take {k : Nat} {v : Vector Byte n} (hk : k ≤ n) (h : ∀ i : Fin n, r.rxAt i.val = v[i.val]) :
    r.rxBytes k = v.toList.take k := by
  apply List.ext_getElem
  · simp [State.rxBytes, hk]
  · intro i hi _
    have hik : i < k := by simpa [State.rxBytes] using hi
    simpa [State.rxBytes] using h ⟨i, Nat.lt_of_lt_of_le hik hk⟩

/-- A receiver that holds a request with its own CRC and expects its unit accepts it (R119). -/
theorem State.rtuVerdict_request {s : State} (hf : s.func = Config.readFunction)
    (h : ∀ i : Fin 8, r.rxAt i.val = (s.requestFrame (crc16 s.requestHead))[i.val]) (hu : r.expUnit = s.unitId) :
    r.rtuVerdict 8 = .ok := by
  have hcomputed : r.computedCrc 8 = crc16 s.requestHead :=
    congrArg crc16 ((State.rxBytes_eq_take (by decide) h).trans (s.take_requestFrame _))
  have hhigh : r.rxAt 7 = hiByte (crc16 s.requestHead) := h 7
  have hlow : r.rxAt 6 = loByte (crc16 s.requestHead) := h 6
  have hreceived : r.receivedCrc 8 = crc16 s.requestHead := by
    rw [State.receivedCrc, hhigh, hlow, catBytes_hi_lo]
  exact State.rtuVerdict_ok ((h 0).trans hu.symm) ((h 1).trans hf) (hcomputed.trans hreceived.symm)

end Validate

/-- Settles O24: what BUILD leaves in TX is a request with its own CRC, and a receiver that holds one accepts it. -/
theorem builtRequestValidates : Obligations.BuiltRequestValidates := by
  intro s hs h1 h247 hf
  refine ⟨_, exec_build_accepted hs (unitInRange_iff.2 ⟨h1, h247⟩) hf, ?head, ?crc, fun r hr hlen h hu => ?validates⟩
  case head => rw [← hf]; rfl
  case crc => exact s.crc_requestFrame _
  case validates =>
    obtain ⟨r', hexec, hresult, hpayLen⟩ := exec_validateRtu_verdict hr (by omega)
    rw [hlen, State.rtuVerdict_request hf h hu] at hresult hpayLen
    exact ⟨r', hexec, hresult, hpayLen⟩

end Sys2Proof.Machine
end

-- ==== Proofs: the serial framer (O26, O27, O28, O30, O32, O33) ====
section
/-! The serial framer (spec/42_framer.md): one law per branch of SEND, RECV and each line event, and what a step makes of
them. A step takes its event in the state without it, `s.setPending rest`, of which every other field is `s`'s. -/

namespace Sys2Proof.Machine

/-- With `rst_n` high, a step runs the next event (R79). -/
theorem step_runEvent {s : State} {e : Event} {rest : List Event} (hi : s.rstHigh = true)
    (h : s.pending = e :: rest) : step s = runEvent e (s.setPending rest) :=
  (step_event h).trans (takeEvent_high (s := s.setPending rest) e hi)

/-- Saturation counts as the statements write it (R128). -/
theorem satInc_eq_ofNat (v : Word) : satInc v = BitVec.ofNat 16 (min (v.toNat + 1) 0xFFFF) := by
  rw [← satInc_toNat, BitVec.ofNat_toNat, BitVec.setWidth_eq]

/-! ## SEND and RECV -/

section Commands

variable {s : State}

theorem exec_send_busy (hb : s.busy = true) : exec .send s = .next (s.raiseError .busy) :=
  if_pos hb

theorem exec_send_portUnavail (hs : idle s) (hen : s.ctrl.en = false) :
    exec .send s = .next (s.raiseError .portUnavail) := by
  rw [exec, execSend, if_neg (State.not_busy_of_idle hs), if_pos (by simp [hen])]

theorem exec_send_noFrame (hs : idle s) (hen : s.ctrl.en = true) (hlen : s.txLen.val = 0) :
    exec .send s = .next (s.raiseError .noFrame) := by
  rw [exec, execSend, if_neg (State.not_busy_of_idle hs), if_neg (by simp [hen]), if_pos (Fin.ext hlen)]

/-- Past its checks SEND starts at TX[0] (R120). -/
theorem exec_send_accepted (hs : idle s) (hen : s.ctrl.en = true) (hlen : s.txLen.val ≠ 0) :
    exec .send s = .next { s with txPos := 0, txElapsed := 0x0000#16, status.txact := true } := by
  rw [exec, execSend, if_neg (State.not_busy_of_idle hs), if_neg (by simp [hen]),
    if_neg fun h => hlen (congrArg Fin.val h)]

theorem exec_recv_busy (hb : s.busy = true) : exec .recv s = .next (s.raiseError .busy) :=
  if_pos hb

theorem exec_recv_portUnavail (hs : idle s) (hen : s.ctrl.en = false) :
    exec .recv s = .next (s.raiseError .portUnavail) := by
  rw [exec, execRecv, if_neg (State.not_busy_of_idle hs), if_pos (by simp [hen])]

/-- Past its checks RECV arms the receiver (R126). -/
theorem exec_recv_accepted (hs : idle s) (hen : s.ctrl.en = true) : exec .recv s = .next s.armRx := by
  rw [exec, execRecv, if_neg (State.not_busy_of_idle hs), if_neg (by simp [hen])]

end Commands

/-- Settles O26: the decoder answers SEND, and its branches are the laws above. -/
theorem sendEffect : Obligations.SendEffect :=
  ⟨decode_cmd 0x0003#16, fun _ =>
    ⟨fun hb => exec_send_busy (State.busy_iff.2 hb), exec_send_portUnavail, exec_send_noFrame, exec_send_accepted⟩⟩

/-- Settles O27: the decoder answers RECV, and its branches are the laws above. -/
theorem recvEffect : Obligations.RecvEffect :=
  ⟨decode_cmd 0x0004#16, fun _ =>
    ⟨fun hb => exec_recv_busy (State.busy_iff.2 hb), exec_recv_portUnavail, exec_recv_accepted⟩⟩

/-! ## TxTake -/

section TxTake

variable {s : State}

theorem txTake_of_not_txact (htx : s.status.txact = false) : txTake s = .next s :=
  if_neg (Bool.eq_false_iff.1 htx)

/-- A byte that is not the last is emitted (R121). -/
theorem txTake_of_ne (htx : s.status.txact = true) (hp : s.txPos.val < 8) (hne : s.txPos.val + 1 ≠ s.txLen.val) :
    txTake s = .next (s.emitByte hp) := by
  rw [txTake, if_pos htx, dif_pos hp]
  exact congrArg _ (if_neg fun h => hne (congrArg Fin.val h))

/-- The last byte is emitted, and completes the transmission (R121). -/
theorem txTake_of_last (htx : s.status.txact = true) (hp : s.txPos.val < 8) (hlast : s.txPos.val + 1 = s.txLen.val) :
    txTake s = .next (s.emitByte hp).txComplete := by
  rw [txTake, if_pos htx, dif_pos hp]
  exact congrArg _ (if_pos (Fin.ext hlast))

end TxTake

/-- Settles O28: the byte is the last or not, and after the last AUTORX is set or not. -/
theorem txTakeEmitsOneByte : Obligations.TxTakeEmitsOneByte := by
  intro s rest hi h
  have hstep : step s = txTake (s.setPending rest) := step_runEvent hi h
  refine ⟨fun htx => hstep.trans (txTake_of_not_txact htx), fun htx hp => ?_⟩
  by_cases hlast : s.txPos.val + 1 = s.txLen.val
  · have hlaw := hstep.trans (txTake_of_last (s := s.setPending rest) htx hp hlast)
    obtain ⟨hauto, hc⟩ | ⟨hauto, hc⟩ := txComplete_cases ((s.setPending rest).emitByte hp) <;> rw [hc] at hlaw
    · exact ⟨_, hlaw, rfl, rfl, absurd hlast, fun _ hoff => absurd (hauto.symm.trans hoff) (by decide), fun _ _ => rfl⟩
    · exact ⟨_, hlaw, rfl, rfl, absurd hlast, fun _ _ => rfl, fun _ hon => absurd (hauto.symm.trans hon) (by decide)⟩
  · exact ⟨_, hstep.trans (txTake_of_ne (s := s.setPending rest) htx hp hlast), rfl, rfl, fun _ => rfl,
      fun he => absurd he hlast, fun he => absurd he hlast⟩

/-! ## RxByte -/

section EndRx

variable {s : State}

/-- A window that ends with GAP, WINDOW or FULL sets RXDONE and DONE (R127). -/
theorem State.endRx_status_of_ne {r : RxEnd} (habort : r ≠ .abort) (htimeout : r ≠ .timeout) :
    (s.endRx r).status = { s.status with rxact := false, rxdone := true, done := true } := by
  simp [State.endRx, habort, htimeout]

/-- A window that ends with TIMEOUT sets RXTO as well (R127). -/
theorem State.endRx_timeout_status :
    (s.endRx .timeout).status = { s.status with rxact := false, rxdone := true, done := true, rxto := true } := by
  simp [State.endRx]

end EndRx

section RxByte

variable {s : State} {b : Byte}

theorem State.rxAt_storeByte_same (hp : s.rxLen.val < 256) : (s.storeByte b hp).rxAt s.rxLen.val = b :=
  s.rxAt_setRx_same s.rxLen.val b

theorem State.rxAt_storeByte_other (hp : s.rxLen.val < 256) {a : Nat} (ha : a ≠ s.rxLen.val) :
    (s.storeByte b hp).rxAt a = s.rxAt a :=
  s.rxAt_setRx_other b ha

theorem rxByte_of_not_rxact (hrx : s.status.rxact = false) : rxByte b s = .next { s with status.drop := true } :=
  if_neg (Bool.eq_false_iff.1 hrx)

/-- A byte that does not fill the window is stored (R132). -/
theorem rxByte_of_ne (hrx : s.status.rxact = true) (hp : s.rxLen.val < 256) (hne : s.rxLen.val + 1 ≠ s.maxRx.val) :
    rxByte b s = .next (s.storeByte b hp) := by
  rw [rxByte, if_pos hrx, dif_pos hp]
  exact congrArg _ (if_neg fun h => hne (congrArg Fin.val h))

/-- Byte number MAX_RX is stored, and ends the window with FULL (R134). -/
theorem rxByte_of_full (hrx : s.status.rxact = true) (hp : s.rxLen.val < 256) (hfull : s.rxLen.val + 1 = s.maxRx.val) :
    rxByte b s = .next ((s.storeByte b hp).endRx .full) := by
  rw [rxByte, if_pos hrx, dif_pos hp]
  exact congrArg _ (if_pos (Fin.ext hfull))

end RxByte

/-- Settles O30: in an open window the byte fills it or not, and RX is that of `storeByte` either way. -/
theorem rxByteStoresOrDrops : Obligations.RxByteStoresOrDrops := by
  intro s b rest hi h
  have hstep : step s = rxByte b (s.setPending rest) := step_runEvent hi h
  refine ⟨fun hrx => hstep.trans (rxByte_of_not_rxact hrx), fun hrx hp => ?_⟩
  have hsame := State.rxAt_storeByte_same (s := s.setPending rest) (b := b) hp
  have hother := fun a => State.rxAt_storeByte_other (s := s.setPending rest) (b := b) hp (a := a)
  by_cases hfull : s.rxLen.val + 1 = s.maxRx.val
  · exact ⟨_, hstep.trans (rxByte_of_full (s := s.setPending rest) hrx hp hfull), hsame, hother, rfl, rfl, rfl,
      absurd hfull, fun _ => ⟨rfl, State.endRx_status_of_ne (by decide) (by decide)⟩⟩
  · exact ⟨_, hstep.trans (rxByte_of_ne (s := s.setPending rest) hrx hp hfull), hsame, hother, rfl, rfl, rfl,
      fun _ => ⟨rfl, rfl⟩, fun he => absurd he hfull⟩

/-! ## Tick -/

/-- The silence has ended the frame: at least one byte, then GAP_TICKS ticks without another, unless GAP_TICKS = 0 (R130). -/
def State.gapDue (s : State) : Prop := s.gapTicks ≠ 0x0000#16 ∧ 0 < s.rxLen.val ∧ s.gapTicks ≤ s.rxSilence

section Tick

variable {s : State}

theorem tick_of_idle (hs : idle s) : tick s = s := by
  obtain ⟨htx, hrx⟩ := hs
  simp [tick, htx, hrx]

/-! In a transmission (R138). -/

theorem tick_txact_counts (htx : s.status.txact = true) (ht : satInc s.txElapsed < s.txTimeout) :
    tick s = s.countTx := by
  rw [tick, if_pos htx, State.tickTx]
  exact if_neg (BitVec.not_le.2 ht)

theorem tick_txact_timeout (htx : s.status.txact = true) (ht : s.txTimeout ≤ satInc s.txElapsed) :
    tick s = s.countTx.endTxTimeout := by
  rw [tick, if_pos htx, State.tickTx]
  exact if_pos ht

/-! In an open window (R129 to R131). -/

theorem State.countRx_rxElapsed_toNat : s.countRx.rxElapsed.toNat = min (s.rxElapsed.toNat + 1) 0xFFFF := by
  rw [State.countRx_rxElapsed, satInc_toNat]

theorem State.countRx_rxSilence_toNat :
    s.countRx.rxSilence.toNat =
      if s.rxLen.val = 0 then s.rxSilence.toNat else min (s.rxSilence.toNat + 1) 0xFFFF := by
  rw [State.countRx_rxSilence]
  by_cases hlen : s.rxLen.val = 0
  · simp [hlen]
  · rw [if_pos (Nat.pos_of_ne_zero hlen), if_neg hlen, satInc_toNat]

theorem State.gapDue_iff :
    s.gapDue ↔ s.gapTicks.toNat ≠ 0 ∧ s.rxLen.val ≠ 0 ∧ s.gapTicks.toNat ≤ s.rxSilence.toNat := by
  rw [State.gapDue, BitVec.le_def, Nat.pos_iff_ne_zero, Ne, BitVec.toNat_eq]
  rfl

section Window

variable (htx : s.status.txact = false) (hrx : s.status.rxact = true)
include htx hrx

theorem tick_rxact : tick s = s.tickRx := by
  simp [tick, htx, hrx]

theorem tick_rxact_gap (hgap : s.countRx.gapDue) : tick s = s.countRx.endRx .gap := by
  rw [tick_rxact htx hrx, State.tickRx]
  exact if_pos hgap

theorem tick_rxact_window (hgap : ¬ s.countRx.gapDue) (ht : s.countRx.rxTimeout ≤ s.countRx.rxElapsed)
    (hlen : s.rxLen.val ≠ 0) : tick s = s.countRx.endRx .window := by
  rw [tick_rxact htx hrx, State.tickRx]
  exact (if_neg hgap).trans ((if_pos ht).trans (if_neg hlen))

theorem tick_rxact_timeout (hgap : ¬ s.countRx.gapDue) (ht : s.countRx.rxTimeout ≤ s.countRx.rxElapsed)
    (hlen : s.rxLen.val = 0) : tick s = s.countRx.endRx .timeout := by
  rw [tick_rxact htx hrx, State.tickRx]
  exact (if_neg hgap).trans ((if_pos ht).trans (if_pos hlen))

theorem tick_rxact_open (hgap : ¬ s.countRx.gapDue) (ht : s.countRx.rxElapsed < s.countRx.rxTimeout) :
    tick s = s.countRx := by
  rw [tick_rxact htx hrx, State.tickRx]
  exact (if_neg hgap).trans (if_neg (BitVec.not_le.2 ht))

/-- However the window goes on, a tick writes the two counters, RX_END and STATUS only (R127, R128). -/
theorem tick_rxact_frame :
    (tick s).rxElapsed = s.countRx.rxElapsed ∧ (tick s).rxSilence = s.countRx.rxSilence ∧
      tick s = { s.countRx with rxEnd := (tick s).rxEnd, status := (tick s).status } := by
  obtain ⟨ht, -⟩ | ⟨-, -, h | ⟨r, -, h⟩⟩ | ⟨-, hr, -⟩ := tick_cases s
  · simp [htx] at ht
  · rw [h]; exact ⟨rfl, rfl, rfl⟩
  · rw [h]; exact ⟨rfl, rfl, rfl⟩
  · simp [hrx] at hr

end Window

end Tick

/-- Settles O33: the comparison of the counter decides in a transmission, and in IDLE there is nothing to count. -/
theorem tickInATransmissionAndInIdle : Obligations.TickInATransmissionAndInIdle := by
  intro s rest hi h elapsed
  have hstep : step s = .next (tick (s.setPending rest)) := step_runEvent hi h
  have helapsed : satInc s.txElapsed = BitVec.ofNat 16 elapsed := satInc_eq_ofNat s.txElapsed
  have htoNat : (satInc s.txElapsed).toNat = elapsed := satInc_toNat s.txElapsed
  rw [← helapsed, ← htoNat]
  refine ⟨fun htx hlt => ?counts, fun htx hle => ?stops, fun hs => ?idle⟩
  case counts => exact hstep.trans (congrArg _ (tick_txact_counts (s := s.setPending rest) htx hlt))
  case stops => exact hstep.trans (congrArg _ (tick_txact_timeout (s := s.setPending rest) htx hle))
  case idle => exact hstep.trans (congrArg _ (tick_of_idle (s := s.setPending rest) hs))

/-- Settles O32: the counters and the frame are those of every tick in a window, and the end is that of the one branch taken,
which the counters decide. -/
theorem tickInAWindow : Obligations.TickInAWindow := by
  intro s rest hi h htx hrx elapsed silence gap
  have hstep : step s = .next (tick (s.setPending rest)) := step_runEvent hi h
  replace htx : (s.setPending rest).status.txact = false := htx
  obtain ⟨hel, hsi, hframe⟩ := tick_rxact_frame htx hrx
  have helapsed : (s.setPending rest).countRx.rxElapsed.toNat = elapsed := State.countRx_rxElapsed_toNat
  have hsilence : (s.setPending rest).countRx.rxSilence.toNat = silence := State.countRx_rxSilence_toNat
  have hgap : (s.setPending rest).countRx.gapDue ↔ gap := by rw [State.gapDue_iff, hsilence]; rfl
  rw [← hgap, ← helapsed]
  refine ⟨_, hstep, congrArg _ hel, (congrArg _ hsi).trans hsilence, ?frame, fun hg => ?gap, fun hg ht hlen => ?window,
    fun hg ht hlen => ?timeout, fun hg ht => ?stays⟩
  case frame => rw [hel, hsi]; exact hframe
  case gap => rw [tick_rxact_gap htx hrx hg]; exact ⟨rfl, State.endRx_status_of_ne (by decide) (by decide)⟩
  case window => rw [tick_rxact_window htx hrx hg ht hlen]; exact ⟨rfl, State.endRx_status_of_ne (by decide) (by decide)⟩
  case timeout => rw [tick_rxact_timeout htx hrx hg ht hlen]; exact ⟨rfl, State.endRx_timeout_status⟩
  case stays => rw [tick_rxact_open htx hrx hg ht]; exact ⟨rfl, rfl⟩

end Sys2Proof.Machine
end

-- ==== Proofs: the RTU response decoder (O36, O37) ====
section
/-! The response decoder and CRC validator (spec/43_decoder.md): one law per branch of VALIDATE_RTU with its whole next state
(R142), and one per check that can name the result (R144). -/

namespace Sys2Proof.Machine

/-! ## The branches of VALIDATE_RTU -/

section ValidateRtu

variable {s : State}

theorem exec_validateRtu_busy (hb : s.busy = true) : exec .validateRtu s = .next (s.raiseError .busy) :=
  if_pos hb

/-- A frame of fewer than 4 bytes has no fields, and CRC keeps its value (R142). -/
theorem exec_validateRtu_short (hs : idle s) (hn : s.rxLen.val < 4) :
    exec .validateRtu s = .next (State.setDone { s with
      mbTid := 0, mbPid := 0, mbLen := 0, payOff := 0, payLen := 0, respUnit := 0, respFc := 0, rxCrc := 0
      result := .short }) := by
  rw [exec, execValidateRtu, if_neg (State.not_busy_of_idle hs)]
  exact if_pos hn

/-- A longer frame leaves its fields and both CRCs, and the verdict decides the payload fields (R142). -/
theorem exec_validateRtu_long (hs : idle s) (hn : 4 ≤ s.rxLen.val) :
    exec .validateRtu s = .next (State.setDone (State.setResult (s.rtuVerdict s.rxLen.val) 2#9 (s.rxLen.val - 4) { s with
      mbTid := 0, mbPid := 0, mbLen := 0
      respUnit := s.rxAt 0, respFc := s.rxAt 1
      rxCrc := s.receivedCrc s.rxLen.val, crc := s.computedCrc s.rxLen.val })) := by
  rw [exec, execValidateRtu, if_neg (State.not_busy_of_idle hs)]
  exact if_neg (Nat.not_lt.2 hn)

end ValidateRtu

/-- Settles O36: one law per branch, and the verdict of a longer frame is the statement's chain of checks. -/
theorem validateRtuEffect : Obligations.ValidateRtuEffect := by
  refine ⟨decode_cmd 0x0005#16, fun s hb => exec_validateRtu_busy (State.busy_iff.2 hb), fun s hs => ?idle⟩
  case idle =>
    intro n c rc
    refine ⟨exec_validateRtu_short hs, fun hn v hv => ?long⟩
    have hverdict : s.rtuVerdict n = v := hv.symm
    rw [exec_validateRtu_long hs hn, hverdict]
    rfl

/-! ## The order of the checks -/

section Verdict

variable {s : State} {n : Nat}

theorem State.rtuVerdict_unitMismatch (hu : s.rxAt 0 ≠ s.expUnit) : s.rtuVerdict n = .unitMismatch :=
  if_pos hu

theorem State.rtuVerdict_fcMismatch (hu : s.rxAt 0 = s.expUnit) (hf : s.rxAt 1 ≠ Config.readFunction) :
    s.rtuVerdict n = .fcMismatch := by
  rw [State.rtuVerdict, if_neg (not_not_intro hu), if_pos hf]

theorem State.rtuVerdict_crcFail (hu : s.rxAt 0 = s.expUnit) (hf : s.rxAt 1 = Config.readFunction)
    (hc : s.computedCrc n ≠ s.receivedCrc n) : s.rtuVerdict n = .crcFail := by
  rw [State.rtuVerdict, if_neg (not_not_intro hu), if_neg (not_not_intro hf), if_pos hc]

end Verdict

/-- Settles O37: the length decides first, and the result of a longer frame is its verdict. -/
theorem rtuCheckOrder : Obligations.RtuCheckOrder := by
  intro s hs
  obtain hn | hn := Nat.lt_or_ge s.rxLen.val 4
  · have hlong : ¬ 4 ≤ s.rxLen.val := Nat.not_le.2 hn
    exact ⟨_, exec_validateRtu_short hs hn, fun _ => rfl, fun h => absurd h hlong, fun h => absurd h hlong,
      fun h => absurd h hlong⟩
  · exact ⟨_, exec_validateRtu_long hs hn, fun h => absurd hn (Nat.not_le.2 h), fun _ => State.rtuVerdict_unitMismatch,
      fun _ => State.rtuVerdict_fcMismatch, fun _ => State.rtuVerdict_crcFail⟩

end Sys2Proof.Machine
end

-- ==== Proofs: the Modbus-TCP header validator (O41, O42) ====
section
/-! The Modbus-TCP header validator (spec/44_tcp.md): one law per branch of VALIDATE_TCP with its whole next state (R149), what
its length check says of the numbers, and one law per outcome of the checks (R150). -/

namespace Sys2Proof.Machine

section ValidateTcp

variable {s : State}

/-! ## The branches of VALIDATE_TCP -/

theorem exec_validateTcp_busy (hb : s.busy = true) : exec .validateTcp s = .next (s.raiseError .busy) :=
  if_pos hb

/-- An ADU of fewer than 8 bytes has no fields (R149). -/
theorem exec_validateTcp_short (hs : idle s) (hn : s.rxLen.val < 8) :
    exec .validateTcp s = .next (State.setDone { s with
      rxCrc := 0, payOff := 0, payLen := 0, mbTid := 0, mbPid := 0, mbLen := 0, respUnit := 0, respFc := 0
      result := .short }) := by
  rw [exec, execValidateTcp, if_neg (State.not_busy_of_idle hs)]
  exact if_pos hn

/-- A longer ADU leaves its fields, and the verdict decides the payload fields (R149). -/
theorem exec_validateTcp_long (hs : idle s) (hn : 8 ≤ s.rxLen.val) :
    exec .validateTcp s = .next (State.setDone (State.setResult (s.tcpVerdict s.rxLen.val) 8#9 (s.rxLen.val - 8) { s with
      rxCrc := 0
      mbTid := s.rxWord 0, mbPid := s.rxWord 2, mbLen := s.rxWord 4
      respUnit := s.rxAt 6, respFc := s.rxAt 7 })) := by
  rw [exec, execValidateTcp, if_neg (State.not_busy_of_idle hs)]
  exact if_neg (Nat.not_lt.2 hn)

/-! ## The checks -/

/-- RX_LEN is at most 256, so its 16-bit word loses nothing, and the length check compares numbers. -/
theorem State.mbapLength_iff :
    s.rxWord 4 = BitVec.ofNat 16 (s.rxLen.val - 6) ↔ (s.rxWord 4).toNat = s.rxLen.val - 6 := by
  have hlen := s.rxLen.isLt
  rw [BitVec.toNat_eq, BitVec.toNat_ofNat, Nat.mod_eq_of_lt (by omega)]

/-- The length check passes when the MBAP length counts all but the first 6 bytes of the ADU. -/
theorem State.mbapLength_of_add (hl : (s.rxWord 4).toNat + 6 = s.rxLen.val) :
    s.rxWord 4 = BitVec.ofNat 16 (s.rxLen.val - 6) :=
  State.mbapLength_iff.2 (Nat.eq_sub_of_add_eq hl)

theorem State.tcpVerdict_mbapProto {n : Nat} (hp : s.rxWord 2 ≠ 0x0000#16) : s.tcpVerdict n = .mbapProto :=
  if_pos hp

section ProtocolPasses

variable (hp : s.rxWord 2 = 0x0000#16)
include hp

theorem State.tcpVerdict_mbapLen (hn : 8 ≤ s.rxLen.val) (hl : (s.rxWord 4).toNat + 6 ≠ s.rxLen.val) :
    s.tcpVerdict s.rxLen.val = .mbapLen := by
  have hl' : s.rxWord 4 ≠ BitVec.ofNat 16 (s.rxLen.val - 6) := fun h => by
    have := State.mbapLength_iff.1 h
    omega
  rw [State.tcpVerdict, if_neg (not_not_intro hp), if_pos hl']

variable (hl : (s.rxWord 4).toNat + 6 = s.rxLen.val)
include hl

/-- With a good header the PDU's two checks decide. -/
theorem State.tcpVerdict_of_header :
    s.tcpVerdict s.rxLen.val =
      if s.rxAt 6 ≠ s.expUnit then .unitMismatch else if s.rxAt 7 ≠ Config.readFunction then .fcMismatch else .ok := by
  rw [State.tcpVerdict, if_neg (not_not_intro hp), if_neg (not_not_intro (State.mbapLength_of_add hl))]

theorem State.tcpVerdict_unitMismatch (hu : s.rxAt 6 ≠ s.expUnit) : s.tcpVerdict s.rxLen.val = .unitMismatch := by
  rw [State.tcpVerdict_of_header hp hl, if_pos hu]

theorem State.tcpVerdict_fcMismatch (hu : s.rxAt 6 = s.expUnit) (hf : s.rxAt 7 ≠ Config.readFunction) :
    s.tcpVerdict s.rxLen.val = .fcMismatch := by
  rw [State.tcpVerdict_of_header hp hl, if_neg (not_not_intro hu), if_pos hf]

theorem State.tcpVerdict_ok (hu : s.rxAt 6 = s.expUnit) (hf : s.rxAt 7 = Config.readFunction) :
    s.tcpVerdict s.rxLen.val = .ok := by
  rw [State.tcpVerdict_of_header hp hl, if_neg (not_not_intro hu), if_neg (not_not_intro hf)]

end ProtocolPasses

end ValidateTcp

/-- Settles O41: one law per branch, and the verdict of a longer ADU is the statement's chain of checks, whose length check
compares numbers. -/
theorem validateTcpEffect : Obligations.ValidateTcpEffect := by
  refine ⟨decode_cmd 0x0006#16, fun s hb => exec_validateTcp_busy (State.busy_iff.2 hb), fun s hs => ?idle⟩
  case idle =>
    intro n
    refine ⟨exec_validateTcp_short hs, fun hn v hv => ?long⟩
    have hverdict : s.tcpVerdict n = v := by
      simp only [State.tcpVerdict, n, ne_eq, State.mbapLength_iff]
      exact hv.symm
    rw [exec_validateTcp_long hs hn, hverdict]
    rfl

/-- Settles O42: the length of the ADU decides first, and the result of a longer one is its verdict. -/
theorem tcpCheckOrder : Obligations.TcpCheckOrder := by
  intro s hs
  obtain hn | hn := Nat.lt_or_ge s.rxLen.val 8
  · have hlong : ¬ 8 ≤ s.rxLen.val := Nat.not_le.2 hn
    exact ⟨_, exec_validateTcp_short hs hn, fun _ => rfl, fun h => absurd h hlong, fun h => absurd h hlong,
      fun h => absurd h hlong, fun h => absurd h hlong, fun h => absurd h hlong, rfl, rfl⟩
  · exact ⟨_, exec_validateTcp_long hs hn, fun h => absurd hn (Nat.not_le.2 h), fun _ => State.tcpVerdict_mbapProto,
      fun _ hp => State.tcpVerdict_mbapLen hp hn, fun _ => State.tcpVerdict_unitMismatch,
      fun _ => State.tcpVerdict_fcMismatch, fun _ => State.tcpVerdict_ok, rfl, rfl⟩

end Sys2Proof.Machine
end

-- ==== Proofs: control (O43, O45, O46, O47) ====
section
/-! The control operations (spec/45_control.md): the effect of NOP, ABORT and SOFT_RESET in every state, what a soft reset
shows to the host and on the outputs, and the CTRL configuration write, one law per branch (R156, R158 to R160). -/

namespace Sys2Proof.Machine

variable {s : State}

/-! ## NOP and ABORT -/

/-- NOP, in every state (R156). -/
theorem exec_nop (s : State) : exec .nop s = .next s := rfl

/-- What ABORT, and a CTRL write that ends a transfer, leave (R159, R160). -/
theorem State.abortTransfer_setDone_eq (s : State) :
    s.abortTransfer.setDone = { s with
      rxEnd := if s.status.rxact = true then .abort else s.rxEnd
      status := { s.status with txact := false, rxact := false, done := true } } :=
  congrArg State.setDone s.abortTransfer_eq

/-- ABORT, in every state (R160). -/
theorem exec_abort (s : State) : exec .abort s = .next s.abortTransfer.setDone := rfl

/-! ## SOFT_RESET -/

/-- SOFT_RESET, in every state (R158). -/
theorem exec_softReset (s : State) : exec .softReset s = .next s.softReset := rfl

/-- No register reads RX, so after a soft reset each reads as after reset (R158). -/
theorem State.softReset_readReg (r : Reg) : s.softReset.readReg r = State.reset.readReg r := by
  cases r <;> rfl

/-- TX is all zero after reset (R56, R181). -/
theorem State.reset_tx_getElem (i : Fin 8) : State.reset.tx[i.val] = 0x00#8 := by
  revert i
  decide

/-- A soft reset keeps every byte of RX (R158). -/
theorem State.softReset_rxAt (a : Nat) : s.softReset.rxAt a = s.rxAt a :=
  State.rxAt_congr s.softReset_rx s.softReset_rxDraw a

/-- No interrupt is enabled after a soft reset (R170). -/
theorem State.softReset_irq : s.softReset.irq = false := by
  have hen : State.reset.irqEn = 0x0000#16 := rfl
  simp [State.irq, hen]

/-! ## The CTRL configuration write -/

/-- The five legal codes select their rates, and the codes 5 to 7 keep the old one (R23). -/
theorem Baud.written_eq_ite (code : BitVec 3) (old : Baud) :
    Baud.written code old =
      if code = 0#3 then .b9600 else if code = 1#3 then .b19200 else if code = 2#3 then .b38400
      else if code = 3#3 then .b57600 else if code = 4#3 then .b115200 else old := by
  revert code
  cases old <;> decide

section CtrlWrite

variable {en : Bool} (autorx : Bool) (baud : BitVec 3)

/-- A write that does not take EN from 1 to 0 while BUSY stores its fields (R159). -/
theorem exec_ctrlWrite_stores
    (h : ¬ (s.ctrl.en = true ∧ en = false ∧ (s.status.txact = true ∨ s.status.rxact = true))) :
    exec (.ctrlWrite en autorx baud) s = .next { s with
      ctrl := { en := en, autorx := autorx, baud := Baud.written baud s.ctrl.baud } } :=
  if_neg (by simpa [State.busy_iff, and_assoc] using h)

/-- A write that takes EN from 1 to 0 while BUSY stores its fields and ends the transfer as ABORT does (R159). -/
theorem exec_ctrlWrite_aborts (hen : s.ctrl.en = true) (hb : s.busy = true) :
    exec (.ctrlWrite false autorx baud) s = .next (State.setDone (State.abortTransfer { s with
      ctrl := { en := false, autorx := autorx, baud := Baud.written baud s.ctrl.baud } })) :=
  if_pos (by simp [hen, hb])

end CtrlWrite

/-! ## The statements -/

/-- Settles O43: the decoder answers NOP, and its effect is one equation. -/
theorem nopChangesNothing : Obligations.NopChangesNothing :=
  ⟨decode_cmd 0x0000#16, exec_nop⟩

/-- Settles O45: the decoder answers ABORT, and the transfer's end with DONE is one equation. -/
theorem abortEndsTheTransfer : Obligations.AbortEndsTheTransfer :=
  ⟨decode_cmd 0x0007#16, fun s => by rw [exec_abort, State.abortTransfer_setDone_eq]⟩

/-- Settles O46: the registers and TX are those of reset, and the outputs are functions of the registers. -/
theorem softResetRestoresAllButRx : Obligations.SoftResetRestoresAllButRx := by
  refine ⟨fun v h => by rw [decode_ctrl, decodeCtrl_softReset h], fun s => ?_⟩
  exact ⟨s.softReset, exec_softReset s, State.softReset_readReg, State.reset_tx_getElem, State.softReset_rxAt,
    rfl, rfl, rfl, State.softReset_irq, rfl⟩

/-- Settles O47: bit 15 tells the two CTRL writes apart, and a configuration write ends an open transfer or only stores. -/
theorem ctrlWriteConfiguresThePort : Obligations.CtrlWriteConfiguresThePort := by
  refine ⟨fun v h => ?softReset, fun v h => ?ctrlWrite, fun s en autorx baud => ?effect⟩
  case softReset => rw [decode_ctrl, decodeCtrl_softReset h]
  case ctrlWrite => rw [decode_ctrl, decodeCtrl_ctrlWrite h]
  case effect =>
    intro kept
    have hkept : Baud.written baud s.ctrl.baud = kept := Baud.written_eq_ite baud s.ctrl.baud
    rw [← hkept]
    refine ⟨exec_ctrlWrite_stores autorx baud, fun hen hclear hb => ?_⟩
    subst hclear
    rw [exec_ctrlWrite_aborts autorx baud hen (State.busy_iff.2 hb), State.abortTransfer_setDone_eq]

end Sys2Proof.Machine
end

-- ==== Proofs: the encoding (O1, O3, O4, O5) ====
section
/-! The decoder against the encoder (R87 to R90, R109), against the rows of the opcode table, and as the first half of a step
(R69, R79). -/

namespace Sys2Proof.Machine

/-! ## Encoded instructions -/

/-- A CTRL value with its fields in place keeps SRST 0, and decodes to those fields (R90). -/
theorem decodeCtrl_ctrlValue (en autorx : Bool) (baud : BitVec 3) :
    decodeCtrl (ctrlValue en autorx baud) = .ctrlWrite en autorx baud := by
  revert en autorx baud
  decide

/-- Settles O1: each command has its own CMD value, the operands of the register writes are the bits of the value written, and
an illegal command is its own value. -/
theorem decodeEncodeRoundTrip : Obligations.DecodeEncodeRoundTrip := by
  intro i hi
  cases i with
  | nop | crcInit | build | send | recv | validateRtu | validateTcp | abort | softReset => rfl
  | crcUpdate d => rw [encode, decode_crcData, loByte_setWidth]
  | crcWrite v => exact decode_crc v
  | ctrlWrite en autorx baud => rw [encode, decode_ctrl, decodeCtrl_ctrlValue]
  | illegalCmd v =>
    have hv : 8 ≤ v.toNat := by simpa [wellFormed] using hi
    rw [encode, decode_cmd, decodeCmd_illegal hv]

/-! ## The rows of the opcode table -/

/-- The write of v to the slot of the row r decodes to a well-formed instruction with the row's mnemonic. -/
def RowDecodes (r : OpcodeRow) (v : Word) : Prop :=
  ∃ i, decode ⟨r.slot, v⟩ = .instr i ∧ mnemonic i = r.mnemonic ∧ wellFormed i = true

section Rows

variable {r : OpcodeRow} {v : Word}

/-- The mask of a command row is all ones, so the row matches its own value only (R87). -/
theorem rowDecodes_of_commandRow (hr : r ∈ commandRows) (hv : v &&& r.mask = r.pattern) : RowDecodes r v := by
  have hmask : ∀ r ∈ commandRows, r.mask = BitVec.allOnes 16 := by decide
  rw [hmask r hr, BitVec.and_allOnes] at hv
  subst hv
  simp only [commandRows, List.mem_cons, List.not_mem_nil, or_false] at hr
  obtain rfl | rfl | rfl | rfl | rfl | rfl | rfl | rfl := hr
  all_goals exact ⟨_, rfl, rfl, rfl⟩

/-- Bit 15 alone tells the two CTRL rows apart, and the rows of CRC_DATA and CRC match every value (R89, R90, R109). -/
theorem rowDecodes_of_registerWriteRow (hr : r ∈ registerWriteRows) (hv : v &&& r.mask = r.pattern) :
    RowDecodes r v := by
  have hbit : (v &&& r.mask).getLsbD 15 = r.pattern.getLsbD 15 := congrArg (·.getLsbD 15) hv
  rw [BitVec.getLsbD_and] at hbit
  simp only [registerWriteRows, List.mem_cons, List.not_mem_nil, or_false] at hr
  obtain rfl | rfl | rfl | rfl := hr
  · exact ⟨_, decode_crcData v, rfl, rfl⟩
  · exact ⟨_, decode_crc v, rfl, rfl⟩
  · have hsrst : v.getLsbD 15 = true := by simpa using hbit
    exact ⟨.softReset, by rw [decode_ctrl, decodeCtrl_softReset hsrst], rfl, rfl⟩
  · have hsrst : v.getLsbD 15 = false := by simpa using hbit
    exact ⟨_, by rw [decode_ctrl, decodeCtrl_ctrlWrite hsrst], rfl, rfl⟩

/-- Masking only lowers a value, and the pattern of an illegal row is at least 0x0008 (R88). -/
theorem rowDecodes_of_illegalRow (hr : r ∈ illegalRows) (hv : v &&& r.mask = r.pattern) : RowDecodes r v := by
  have hrows : ∀ r ∈ illegalRows, r.mnemonic = "ILLEGAL_CMD" ∧ r.slot = 0x003#9 ∧ 8 ≤ r.pattern.toNat := by decide
  obtain ⟨hname, hslot, hpattern⟩ := hrows r hr
  have hle : 8 ≤ v.toNat := by
    rw [← hv, BitVec.toNat_and] at hpattern
    exact Nat.le_trans hpattern Nat.and_le_left
  exact ⟨.illegalCmd v, by rw [hslot, decode_cmd, decodeCmd_illegal hle], hname.symm, by simpa [wellFormed] using hle⟩

end Rows

/-- Settles O3: the rows are those of the commands, of the register writes and of the illegal values. -/
theorem tableRowsDecodeToTheirMnemonic : Obligations.TableRowsDecodeToTheirMnemonic := by
  intro r hr v hv
  rw [opcodeTable, List.append_assoc, List.mem_append, List.mem_append] at hr
  obtain hr | hr | hr := hr
  · exact rowDecodes_of_commandRow hr hv
  · exact rowDecodes_of_registerWriteRow hr hv
  · exact rowDecodes_of_illegalRow hr hv

/-! ## The step of a bus write -/

/-- A table word stands for an instruction when its bus write decodes to it. -/
theorem decode_tableWrite {nbits w : Nat} {i : Instr} (h : decodeTableWord nbits w = some i) :
    decode (tableWrite nbits w) = .instr i := by
  unfold decodeTableWord at h
  split at h
  next j hj => rw [hj, Option.some.inj h]
  next => cases h

/-- With `rst_n` high, a step takes the bus write of an instruction by executing it (R69, R79). -/
theorem step_instr {s : State} {w : BusWrite} {rest : List Event} {i : Instr} (hi : s.rstHigh = true)
    (h : s.pending = .memWrite w :: rest) (hd : decode w = .instr i) : step s = exec i (s.setPending rest) :=
  (step_event h).trans (takeEvent_instr (s := s.setPending rest) hi hd)

/-- Settles O4: a placed table word is the bus write that a step takes next. -/
theorem stepRunsTheDecodedInstruction : Obligations.StepRunsTheDecodedInstruction :=
  ⟨fun _ _ _ _ => step_instr, fun s nbits w _ h => step_instr (s := s.withFetchWord nbits w) rfl rfl (decode_tableWrite h)⟩

/-- Settles O5: every word goes to CMD, CRC_DATA, CRC or CTRL, and the law of that slot decodes it. -/
theorem specWordsDecode : Obligations.SpecWordsDecode :=
  ⟨decode_cmd _, decode_cmd _, decode_cmd _, decode_cmd _, decode_cmd _, decode_cmd _, decode_cmd _, decode_crcData _,
    decode_crc _, decode_ctrl _, decode_ctrl _⟩

end Sys2Proof.Machine
end

-- ==== Proofs: what instructions, writes and steps can do (O6, O7, O9, O10) ====
section
/-! What an instruction, a plain register write and an event can do, each said once: the frames of the later sections are read
off these. Then the invariant of a step, and the only stops of a step. -/

namespace Sys2Proof.Machine

/-! ## The effect of an instruction -/

/-- The next states that an instruction can leave, one constructor per kind of effect. -/
inductive InstrEffect (s : State) : Instr → State → Prop where
  /-- The instruction is refused, or is illegal (R88, R157). -/
  | refused (i : Instr) (e : ErrCode) : InstrEffect s i (s.raiseError e)
  /-- NOP (R156). -/
  | nop : InstrEffect s .nop s
  /-- A write of CRC_DATA or of CRC (R108, R109). -/
  | crcWritten (i : Instr) (c : Word) : InstrEffect s i { s with crc := c }
  /-- CRC_INIT (R107). -/
  | crcInit : InstrEffect s .crcInit (State.setDone { s with crc := 0xFFFF#16 })
  /-- BUILD (R115). -/
  | built (hs : idle s) (c : Word) :
      InstrEffect s .build (State.setDone { s with tx := s.requestFrame c, txLen := 8, crc := c })
  /-- SEND (R120). -/
  | sent (hs : idle s) : InstrEffect s .send { s with txPos := 0, txElapsed := 0x0000#16, status.txact := true }
  /-- RECV (R126). -/
  | armed (hs : idle s) : InstrEffect s .recv s.armRx
  /-- A validation writes the decoder outputs and CRC (R142, R149). -/
  | judged (i : Instr) (hs : idle s) (v : Verdict) (unit fc : Byte) (rxCrc crc tid pid len : Word)
      (payOff payLen : BitVec 9) :
      InstrEffect s i (State.setDone { s with
        result := v, respUnit := unit, respFc := fc, rxCrc := rxCrc, crc := crc
        mbTid := tid, mbPid := pid, mbLen := len, payOff := payOff, payLen := payLen })
  /-- ABORT (R160). -/
  | aborted : InstrEffect s .abort s.abortTransfer.setDone
  /-- SOFT_RESET (R158). -/
  | softReset : InstrEffect s .softReset s.softReset
  /-- A configuration write (R159). -/
  | configured (en autorx : Bool) (baud : BitVec 3) (c : Ctrl) :
      InstrEffect s (.ctrlWrite en autorx baud) { s with ctrl := c }
  /-- A configuration write that clears EN while BUSY (R159, R160). -/
  | disabled (autorx : Bool) (baud : BitVec 3) (c : Ctrl) :
      InstrEffect s (.ctrlWrite false autorx baud) (State.setDone (State.abortTransfer { s with ctrl := c }))

section Instructions

variable {s : State}

/-- BUSY decides between a refusal and what the command does in IDLE (R155). -/
theorem busy_or_idle (s : State) : s.busy = true ∨ idle s := by
  by_cases hb : s.busy = true
  · exact .inl hb
  · exact .inr (State.idle_of_not_busy hb)

theorem build_effect (s : State) : ∃ t, exec .build s = .next t ∧ InstrEffect s .build t := by
  obtain hb | hs := busy_or_idle s
  · exact ⟨_, exec_build_busy hb, .refused _ _⟩
  by_cases h : unitInRange s.unitId = true ∧ s.func = Config.readFunction
  · exact ⟨_, exec_build_accepted hs h.1 h.2, .built hs _⟩
  · exact ⟨_, exec_build_cfgErr hs (not_and.1 h), .refused _ _⟩

theorem send_effect (s : State) : ∃ t, exec .send s = .next t ∧ InstrEffect s .send t := by
  obtain hb | hs := busy_or_idle s
  · exact ⟨_, exec_send_busy hb, .refused _ _⟩
  cases hen : s.ctrl.en with
  | false => exact ⟨_, exec_send_portUnavail hs hen, .refused _ _⟩
  | true =>
    by_cases hlen : s.txLen.val = 0
    · exact ⟨_, exec_send_noFrame hs hen hlen, .refused _ _⟩
    · exact ⟨_, exec_send_accepted hs hen hlen, .sent hs⟩

theorem recv_effect (s : State) : ∃ t, exec .recv s = .next t ∧ InstrEffect s .recv t := by
  obtain hb | hs := busy_or_idle s
  · exact ⟨_, exec_recv_busy hb, .refused _ _⟩
  cases hen : s.ctrl.en with
  | false => exact ⟨_, exec_recv_portUnavail hs hen, .refused _ _⟩
  | true => exact ⟨_, exec_recv_accepted hs hen, .armed hs⟩

theorem validateRtu_effect (s : State) : ∃ t, exec .validateRtu s = .next t ∧ InstrEffect s .validateRtu t := by
  obtain hb | hs := busy_or_idle s
  · exact ⟨_, exec_validateRtu_busy hb, .refused _ _⟩
  obtain hn | hn := Nat.lt_or_ge s.rxLen.val 4
  · exact ⟨_, exec_validateRtu_short hs hn, .judged _ hs ..⟩
  · exact ⟨_, exec_validateRtu_long hs hn, .judged _ hs ..⟩

theorem validateTcp_effect (s : State) : ∃ t, exec .validateTcp s = .next t ∧ InstrEffect s .validateTcp t := by
  obtain hb | hs := busy_or_idle s
  · exact ⟨_, exec_validateTcp_busy hb, .refused _ _⟩
  obtain hn | hn := Nat.lt_or_ge s.rxLen.val 8
  · exact ⟨_, exec_validateTcp_short hs hn, .judged _ hs ..⟩
  · exact ⟨_, exec_validateTcp_long hs hn, .judged _ hs ..⟩

theorem ctrlWrite_effect (en autorx : Bool) (baud : BitVec 3) (s : State) :
    ∃ t, exec (.ctrlWrite en autorx baud) s = .next t ∧ InstrEffect s (.ctrlWrite en autorx baud) t := by
  by_cases h : s.ctrl.en = true ∧ en = false ∧ (s.status.txact = true ∨ s.status.rxact = true)
  · obtain ⟨hen, rfl, hb⟩ := h
    exact ⟨_, exec_ctrlWrite_aborts autorx baud hen (State.busy_iff.2 hb), .disabled _ _ _⟩
  · exact ⟨_, exec_ctrlWrite_stores autorx baud h, .configured _ _ _ _⟩

/-- Every instruction completes in every state, with one of the effects. -/
theorem exec_effect (i : Instr) (s : State) : ∃ t, exec i s = .next t ∧ InstrEffect s i t := by
  cases i with
  | nop => exact ⟨_, exec_nop s, .nop⟩
  | crcInit => exact ⟨_, exec_crcInit s, .crcInit⟩
  | build => exact build_effect s
  | send => exact send_effect s
  | recv => exact recv_effect s
  | validateRtu => exact validateRtu_effect s
  | validateTcp => exact validateTcp_effect s
  | abort => exact ⟨_, exec_abort s, .aborted⟩
  | crcUpdate d => exact ⟨_, exec_crcUpdate d s, .crcWritten _ _⟩
  | crcWrite v => exact ⟨_, exec_crcWrite v s, .crcWritten _ _⟩
  | softReset => exact ⟨_, exec_softReset s, .softReset⟩
  | ctrlWrite en autorx baud => exact ctrlWrite_effect en autorx baud s
  | illegalCmd v => exact ⟨_, exec_illegalCmd v s, .refused _ _⟩

theorem instrEffect_of_exec {i : Instr} {t : State} (h : exec i s = .next t) : InstrEffect s i t := by
  obtain ⟨t', ht', heffect⟩ := exec_effect i s
  obtain rfl : t' = t := Host.Outcome.next.inj (ht'.symm.trans h)
  exact heffect

/-- What stands around the block, and RX, are the same in both states. -/
structure SameSurroundings (s t : State) : Prop where
  rx : t.rx = s.rx
  rxDraw : t.rxDraw = s.rxDraw
  wire : t.wire = s.wire
  pending : t.pending = s.pending
  busRdata : t.busRdata = s.busRdata
  rstHigh : t.rstHigh = s.rstHigh

/-- No instruction touches RX or what stands around the block. -/
theorem InstrEffect.sameSurroundings {i : Instr} {t : State} (h : InstrEffect s i t) : SameSurroundings s t := by
  cases h with
  | aborted | disabled => constructor <;> simp
  | refused | nop | crcWritten | crcInit | built | sent | armed | judged | softReset | configured =>
    constructor <;> rfl

end Instructions

/-- Settles O9: every instruction has one of the effects, and none touches RX or what stands around the block. -/
theorem everyInstructionCompletesAndLeavesRx : Obligations.EveryInstructionCompletesAndLeavesRx := by
  intro i s
  obtain ⟨t, ht, heffect⟩ := exec_effect i s
  obtain ⟨hrx, hdraw, hwire, hpending, hbus, hrst⟩ := heffect.sameSurroundings
  exact ⟨t, ht, State.rxAt_congr hrx hdraw, hrx, hdraw, hwire, hpending, hbus, hrst⟩

/-! ## The invariant of a step -/

/-- Settles O6: every clause is a comparison of reset values. -/
theorem resetMeetsTheInvariant : Obligations.ResetMeetsTheInvariant := Inv.reset

/-- Settles O7: with no event to come nothing changes, and every event keeps the invariant. -/
theorem stepKeepsTheInvariant : Obligations.StepKeepsTheInvariant := by
  intro s t hs h
  cases hp : s.pending with
  | nil =>
    rw [step_idle hp] at h
    exact Host.Outcome.next.inj h ▸ hs
  | cons e rest =>
    obtain ⟨t', ht', hinv⟩ := (hs.setPending rest).takeEvent e
    rw [step_event hp, ht'] at h
    exact Host.Outcome.next.inj h ▸ hinv

/-! ## The stops -/

section Stops

variable {s : State}

/-- A host write completes, as an instruction or as a plain register write (R69, R157). -/
theorem hostWrite_next (w : BusWrite) (s : State) : ∃ t, hostWrite w s = .next t := by
  unfold hostWrite
  split
  next i _ =>
    obtain ⟨t, ht, -⟩ := exec_effect i s
    exact ⟨t, ht⟩
  next => exact ⟨_, rfl⟩

/-- TxTake stops only where TX[8] would be due (R11). -/
theorem txTake_next_or_fault (s : State) :
    (∃ t, txTake s = .next t) ∨ (txTake s = .fault .txIndex ∧ s.status.txact = true ∧ s.txPos.val = 8) := by
  unfold txTake
  split
  next htx =>
    split
    · exact .inl ⟨_, rfl⟩
    next hp => exact .inr ⟨rfl, htx, by omega⟩
  next => exact .inl ⟨_, rfl⟩

/-- RxByte stops only where RX[256] would be written (R11). -/
theorem rxByte_next_or_fault (b : Byte) (s : State) :
    (∃ t, rxByte b s = .next t) ∨ (rxByte b s = .fault .rxIndex ∧ s.status.rxact = true ∧ s.rxLen.val = 256) := by
  unfold rxByte
  split
  next hrx =>
    split
    · exact .inl ⟨_, rfl⟩
    next hp => exact .inr ⟨rfl, hrx, by omega⟩
  next => exact .inl ⟨_, rfl⟩

/-- A step answers a next state, or a line event stops outside its buffer. -/
theorem step_next_or_fault (s : State) :
    (∃ t, step s = .next t) ∨
    (step s = .fault .txIndex ∧ s.rstHigh = true ∧ s.status.txact = true ∧ s.txPos.val = 8 ∧
      ∃ rest, s.pending = .txTake :: rest) ∨
    (step s = .fault .rxIndex ∧ s.rstHigh = true ∧ s.status.rxact = true ∧ s.rxLen.val = 256 ∧
      ∃ b rest, s.pending = .rxByte b :: rest) := by
  cases hp : s.pending with
  | nil => exact .inl ⟨s, step_idle hp⟩
  | cons e rest =>
    cases hi : s.rstHigh with
    | false => exact .inl ⟨_, (step_event hp).trans (takeEvent_low (s := s.setPending rest) e hi)⟩
    | true =>
      rw [step_runEvent hi hp]
      cases e with
      | memWrite w => exact .inl (hostWrite_next w _)
      | memRead idx => exact .inl ⟨_, rfl⟩
      | tick => exact .inl ⟨_, rfl⟩
      | rstN level => exact .inl ⟨_, rfl⟩
      | txTake =>
        obtain h | ⟨h, htx, hpos⟩ := txTake_next_or_fault (s.setPending rest)
        · exact .inl h
        · exact .inr (.inl ⟨h, rfl, htx, hpos, rest, rfl⟩)
      | rxByte b =>
        obtain h | ⟨h, hrx, hlen⟩ := rxByte_next_or_fault b (s.setPending rest)
        · exact .inl h
        · exact .inr (.inr ⟨h, rfl, hrx, hlen, b, rest, rfl⟩)

end Stops

/-- Settles O10: a step that answers no next state is one of the two stops. -/
theorem stopsOnlyOutsideTheBuffers : Obligations.StopsOnlyOutsideTheBuffers := by
  intro s
  obtain ⟨t, ht⟩ | ⟨hf, hi, htx, hpos, hp⟩ | ⟨hf, hi, hrx, hlen, hp⟩ := step_next_or_fault s
  · exact ⟨fun r h => (nomatch ht.symm.trans h), fun r h => (nomatch ht.symm.trans h)⟩
  · refine ⟨fun r h => ⟨hi, .inl ⟨?_, htx, hpos, hp⟩⟩, fun r h => nomatch hf.symm.trans h⟩
    exact (Host.Outcome.fault.inj (hf.symm.trans h)).symm
  · refine ⟨fun r h => ⟨hi, .inr ⟨?_, hrx, hlen, hp⟩⟩, fun r h => nomatch hf.symm.trans h⟩
    exact (Host.Outcome.fault.inj (hf.symm.trans h)).symm

end Sys2Proof.Machine
end

-- ==== Proofs: the effect of an event ====
section
/-! What a plain register write and an event can do, each said once, one constructor per kind of effect (R18, R69); and which
bus writes decode to an instruction. -/

namespace Sys2Proof.Machine

/-! ## The effect of a plain register write -/

/-- The next states that a plain register write can leave, one constructor per kind of effect. -/
inductive PlainEffect (s : State) : PlainWrite → State → Prop where
  /-- A write of STATUS (R24). -/
  | cleared (v : Word) : PlainEffect s (.status v) (s.clearStatus v)
  /-- A write of RX_LEN, MAX_RX or RXBUF in an open window (R155). -/
  | refused (p : PlainWrite) : PlainEffect s p (s.raiseError .busy)
  /-- A write that goes to an operand or a limit, or is ignored (R69). -/
  | operands (p : PlainWrite) (irqEn : Word) (unitId func : Byte) (startAddr quantity : Word) (expUnit : Byte)
      (txTimeout rxTimeout gapTicks : Word) :
      PlainEffect s p { s with
        irqEn := irqEn, unitId := unitId, func := func, startAddr := startAddr, quantity := quantity
        expUnit := expUnit, txTimeout := txTimeout, rxTimeout := rxTimeout, gapTicks := gapTicks }
  /-- A write of RX_LEN, MAX_RX or RXBUF outside a window (R39, R40, R57). -/
  | receiver (p : PlainWrite) (hrx : s.status.rxact = false) (rxLen maxRx : Fin 257) (rx : Memory) :
      PlainEffect s p { s with rxLen := rxLen, maxRx := maxRx, rx := rx }

theorem writeRxLen_effect (v : Word) (s : State) : PlainEffect s (.rxLen v) (s.writeRxLen v) := by
  unfold State.writeRxLen
  split
  · exact .refused _
  next hrx => split <;> exact .receiver _ (Bool.eq_false_iff.2 hrx) _ _ _

theorem writeMaxRx_effect (v : Word) (s : State) : PlainEffect s (.maxRx v) (s.writeMaxRx v) := by
  unfold State.writeMaxRx
  split
  · exact .refused _
  next hrx => split <;> exact .receiver _ (Bool.eq_false_iff.2 hrx) _ _ _

theorem writeRxbuf_effect (i : Fin 256) (b : Byte) (s : State) : PlainEffect s (.rxbuf i b) (s.writeRxbuf i b) := by
  unfold State.writeRxbuf
  split
  · exact .refused _
  next hrx => exact .receiver _ (Bool.eq_false_iff.2 hrx) _ _ _

/-- Every plain register write has one of the effects. -/
theorem writePlain_effect (p : PlainWrite) (s : State) : PlainEffect s p (s.writePlain p) := by
  cases p with
  | status v => exact .cleared v
  | rxLen v => exact writeRxLen_effect v s
  | maxRx v => exact writeMaxRx_effect v s
  | rxbuf i b => exact writeRxbuf_effect i b s
  | irqEn | unitId | func | startAddr | quantity | expUnit | txTimeout | rxTimeout | gapTicks | ignored =>
    exact .operands _ _ _ _ _ _ _ _ _ _

/-! ## The effect of an event -/

/-- The next states that an event can leave, one constructor per kind of effect. -/
inductive EventEffect (s : State) : Event → State → Prop where
  /-- The block's own state is as before: a read, or an event without effect (R68, R121, R128, R183). -/
  | kept (e : Event) (v : Word) (htake : s.rstHigh = true → e = .txTake → s.status.txact = false)
      (htick : s.rstHigh = true → e = .tick → idle s) : EventEffect s e { s with busRdata := v }
  /-- `rst_n` rises (R183). -/
  | risen : EventEffect s (.rstN true) { s with rstHigh := true }
  /-- `rst_n` falls (R183). -/
  | reset : EventEffect s (.rstN false) s.hardReset
  /-- A bus write that is an instruction (R69). -/
  | instr {w : BusWrite} {i : Instr} {t : State} (hd : decode w = .instr i) (h : InstrEffect s i t) :
      EventEffect s (.memWrite w) t
  /-- A plain register write (R69). -/
  | plain {w : BusWrite} {p : PlainWrite} {t : State} (hd : decode w = .plain p) (h : PlainEffect s p t) :
      EventEffect s (.memWrite w) t
  /-- The line takes a byte that is not the last (R121). -/
  | taken (htx : s.status.txact = true) (hp : s.txPos.val < 8) (hne : s.txPos.val + 1 ≠ s.txLen.val) :
      EventEffect s .txTake (s.emitByte hp)
  /-- The line takes the last byte, with AUTORX = 0 (R123). -/
  | completed (htx : s.status.txact = true) (hp : s.txPos.val < 8) (hlast : s.txPos.val + 1 = s.txLen.val)
      (hauto : s.ctrl.autorx = false) : EventEffect s .txTake (s.emitByte hp).endSend
  /-- The line takes the last byte, with AUTORX = 1 (R124). -/
  | turnedRound (htx : s.status.txact = true) (hp : s.txPos.val < 8) (hlast : s.txPos.val + 1 = s.txLen.val)
      (hauto : s.ctrl.autorx = true) : EventEffect s .txTake (s.emitByte hp).endSend.armRx
  /-- A byte comes outside a window (R132). -/
  | dropped (b : Byte) (hrx : s.status.rxact = false) : EventEffect s (.rxByte b) { s with status.drop := true }
  /-- A byte comes that does not fill the window (R132). -/
  | stored (b : Byte) (hrx : s.status.rxact = true) (hp : s.rxLen.val < 256) (hne : s.rxLen.val + 1 ≠ s.maxRx.val) :
      EventEffect s (.rxByte b) (s.storeByte b hp)
  /-- Byte number MAX_RX comes (R134). -/
  | filled (b : Byte) (hrx : s.status.rxact = true) (hp : s.rxLen.val < 256) (hfull : s.rxLen.val + 1 = s.maxRx.val) :
      EventEffect s (.rxByte b) ((s.storeByte b hp).endRx .full)
  /-- A tick in a transmission (R128). -/
  | countedTx (htx : s.status.txact = true) (ht : satInc s.txElapsed < s.txTimeout) : EventEffect s .tick s.countTx
  /-- A tick that ends a transmission (R138). -/
  | timedOut (htx : s.status.txact = true) (ht : s.txTimeout ≤ satInc s.txElapsed) :
      EventEffect s .tick s.countTx.endTxTimeout
  /-- A tick in an open window (R128). -/
  | countedRx (htx : s.status.txact = false) (hrx : s.status.rxact = true) (ht : satInc s.rxElapsed < s.rxTimeout) :
      EventEffect s .tick s.countRx
  /-- A tick that ends a window (R130, R131). -/
  | ended (htx : s.status.txact = false) (hrx : s.status.rxact = true) (r : RxEnd) (hr : r ≠ .abort) :
      EventEffect s .tick (s.countRx.endRx r)

section Events

variable {s t : State}

/-- A read writes the bus only (R68). -/
theorem memRead_effect (idx : SlotIdx) (v : Word) (s : State) : EventEffect s (.memRead idx) { s with busRdata := v } :=
  .kept _ v (fun _ he => nomatch he) (fun _ he => nomatch he)

/-- A held block takes no event (R183). -/
theorem EventEffect.held (e : Event) (hi : s.rstHigh = false) : EventEffect s e s :=
  .kept e s.busRdata (fun h => absurd h (by simp [hi])) (fun h => absurd h (by simp [hi]))

theorem hostWrite_effect {w : BusWrite} (h : hostWrite w s = .next t) : EventEffect s (.memWrite w) t := by
  unfold hostWrite at h
  split at h
  next i hd => exact .instr hd (instrEffect_of_exec h)
  next p hd =>
    obtain rfl := Host.Outcome.next.inj h
    exact .plain hd (writePlain_effect p s)

theorem txTake_effect (h : txTake s = .next t) : EventEffect s .txTake t := by
  obtain ⟨htx, rfl⟩ | ⟨hp, htx, rfl⟩ := txTake_cases h
  · exact .kept _ t.busRdata (fun _ _ => htx) (fun _ he => nomatch he)
  · split
    next hlast =>
      obtain ⟨hauto, hc⟩ | ⟨hauto, hc⟩ := txComplete_cases (s.emitByte hp) <;> rw [hc]
      · exact .turnedRound htx hp (congrArg Fin.val hlast) hauto
      · exact .completed htx hp (congrArg Fin.val hlast) hauto
    next hne => exact .taken htx hp fun he => hne (Fin.ext he)

theorem rxByte_effect {b : Byte} (h : rxByte b s = .next t) : EventEffect s (.rxByte b) t := by
  obtain ⟨hrx, rfl⟩ | ⟨hp, hrx, rfl⟩ := rxByte_cases h
  · exact .dropped b hrx
  · split
    next hfull => exact .filled b hrx hp (congrArg Fin.val hfull)
    next hne => exact .stored b hrx hp fun he => hne (Fin.ext he)

theorem tick_effect (s : State) : EventEffect s .tick (tick s) := by
  cases htx : s.status.txact with
  | true =>
    by_cases ht : s.txTimeout ≤ satInc s.txElapsed
    · rw [tick_txact_timeout htx ht]; exact .timedOut htx ht
    · rw [tick_txact_counts htx (BitVec.not_le.1 ht)]; exact .countedTx htx (BitVec.not_le.1 ht)
  | false =>
    cases hrx : s.status.rxact with
    | false =>
      rw [tick_of_idle ⟨htx, hrx⟩]
      exact .kept _ s.busRdata (fun _ he => nomatch he) (fun _ _ => ⟨htx, hrx⟩)
    | true =>
      by_cases hgap : s.countRx.gapDue
      · rw [tick_rxact_gap htx hrx hgap]; exact .ended htx hrx .gap (by decide)
      by_cases ht : s.countRx.rxTimeout ≤ s.countRx.rxElapsed
      · by_cases hlen : s.rxLen.val = 0
        · rw [tick_rxact_timeout htx hrx hgap ht hlen]; exact .ended htx hrx .timeout (by decide)
        · rw [tick_rxact_window htx hrx hgap ht hlen]; exact .ended htx hrx .window (by decide)
      · rw [tick_rxact_open htx hrx hgap (BitVec.not_le.1 ht)]; exact .countedRx htx hrx (BitVec.not_le.1 ht)

theorem resetPin_effect (level : Bool) (s : State) : EventEffect s (.rstN level) (resetPin level s) := by
  cases level with
  | true => exact .risen
  | false =>
    cases hi : s.rstHigh with
    | true => rw [resetPin, if_neg (by decide), if_pos hi]; exact .reset
    | false => rw [resetPin, if_neg (by decide), if_neg (by simp [hi])]; exact .held _ hi

/-- Every event that is taken has one of the effects. -/
theorem takeEvent_effect {e : Event} (h : takeEvent e s = .next t) : EventEffect s e t := by
  cases hi : s.rstHigh with
  | true =>
    rw [takeEvent_high e hi] at h
    cases e with
    | memWrite w => exact hostWrite_effect h
    | memRead idx => cases h; exact memRead_effect idx _ s
    | txTake => exact txTake_effect h
    | rxByte b => exact rxByte_effect h
    | tick => cases h; exact tick_effect s
    | rstN level => cases h; exact resetPin_effect level s
  | false =>
    rw [takeEvent_low e hi] at h
    cases h
    cases e with
    | memRead idx => exact memRead_effect idx _ s
    | rstN level => exact resetPin_effect level s
    | memWrite | txTake | rxByte | tick => exact .held _ hi

/-- A step changes nothing, or has the effect of the next event. -/
theorem step_effect (h : step s = .next t) :
    t = s ∨ ∃ e rest, s.pending = e :: rest ∧ EventEffect (s.setPending rest) e t := by
  cases hp : s.pending with
  | nil => exact .inl (Host.Outcome.next.inj ((step_idle hp).symm.trans h)).symm
  | cons e rest => exact .inr ⟨e, rest, rfl, takeEvent_effect ((step_event hp).symm.trans h)⟩

end Events

/-! ## Which writes decode to what -/

section Decoding

variable {w : BusWrite}

/-- A register stands at one slot (R22). -/
theorem eq_slot_of_slotOf {idx : SlotIdx} {r : Reg} (h : slotOf idx = .reg r) : idx = r.slot := by
  have hreg : regAt idx.toNat = some r := by
    unfold slotOf at h
    split at h
    · cases h
    · split at h
      · cases h
      · split at h
        next r' hr' => cases h; exact hr'
        next => cases h
  apply BitVec.eq_of_toNat_eq
  unfold regAt at hreg
  split at hreg
  case h_34 => cases hreg
  all_goals
    cases hreg
    assumption

/-- A CMD value is the encoding of the command that it decodes to (R87, R88). -/
theorem encode_decodeCmd (v : Word) : encode (decodeCmd v) = ⟨0x003#9, v⟩ := by
  unfold decodeCmd
  split
  case h_9 => rfl
  all_goals
    next hv => exact congrArg (BusWrite.mk 0x003#9) (BitVec.eq_of_toNat_eq hv.symm)

/-- A CTRL value decodes to one of the two operations on CTRL (R90). -/
theorem encode_decodeCtrl_slot (v : Word) : (encode (decodeCtrl v)).slot = 0x000#9 := by
  unfold decodeCtrl
  split <;> rfl

/-- An instruction is a write of the slot that its encoding goes to (R87 to R90, R109). -/
theorem slot_of_decode {i : Instr} (h : decode w = .instr i) : w.slot = (encode i).slot := by
  obtain ⟨slot, v⟩ := w
  unfold decode at h
  split at h
  case h_1 hs => cases h; rw [encode_decodeCmd]; exact eq_slot_of_slotOf hs
  case h_2 hs => cases h; exact eq_slot_of_slotOf hs
  case h_3 hs => cases h; exact eq_slot_of_slotOf hs
  case h_4 hs => cases h; rw [encode_decodeCtrl_slot]; exact eq_slot_of_slotOf hs
  all_goals cases h

/-- A command has its encoding as its only bus write (R87). -/
theorem eq_encode_of_command {i : Instr} (h : decode w = .instr i) (hi : (encode i).slot = 0x003#9) : w = encode i := by
  obtain ⟨slot, v⟩ := w
  obtain rfl : slot = 0x003#9 := (slot_of_decode h).trans hi
  rw [decode_cmd] at h
  cases h
  exact (encode_decodeCmd v).symm

/-- An operation on CTRL is a write of CTRL whose value decodes to it (R90). -/
theorem decodeCtrl_of_decode {i : Instr} (h : decode w = .instr i) (hi : (encode i).slot = 0x000#9) :
    w.slot = 0x000#9 ∧ decodeCtrl w.value = i := by
  obtain ⟨slot, v⟩ := w
  obtain rfl : slot = 0x000#9 := (slot_of_decode h).trans hi
  rw [decode_ctrl] at h
  cases h
  exact ⟨rfl, rfl⟩

/-- SOFT_RESET is a write of CTRL with SRST (R90). -/
theorem decode_softReset_srst (h : decode w = .instr .softReset) : w.slot = 0x000#9 ∧ w.value.getLsbD 15 = true := by
  obtain ⟨hslot, hv⟩ := decodeCtrl_of_decode h rfl
  refine ⟨hslot, ?_⟩
  cases hbit : w.value.getLsbD 15 with
  | true => rfl
  | false =>
    rw [decodeCtrl_ctrlWrite hbit] at hv
    cases hv

/-- A configuration write is a write of CTRL whose bit 0 is EN (R90). -/
theorem decode_ctrlWrite_en {en autorx : Bool} {baud : BitVec 3} (h : decode w = .instr (.ctrlWrite en autorx baud)) :
    w.slot = 0x000#9 ∧ w.value.getLsbD 0 = en := by
  obtain ⟨hslot, hv⟩ := decodeCtrl_of_decode h rfl
  refine ⟨hslot, ?_⟩
  unfold decodeCtrl at hv
  split at hv <;> cases hv
  rfl

/-- A STATUS write is a plain write of its slot (R24). -/
theorem decode_status_eq {v : Word} (h : decode w = .plain (.status v)) : w = ⟨0x001#9, v⟩ := by
  obtain ⟨slot, value⟩ := w
  unfold decode at h
  split at h
  case h_5 hs =>
    obtain rfl := eq_slot_of_slotOf hs
    cases h
    rfl
  all_goals cases h

end Decoding

end Sys2Proof.Machine
end

-- ==== Proofs: what every step keeps (O11, O12, O13, O14) ====
section
/-! Read off the effect of an event: the transitions of the sequencer (R58), the sticky flags (R24), the bytes being sent (R83)
and the buffer of an open window (R61). -/

namespace Sys2Proof.Machine

variable {s t : State} {e : Event} {i : Instr} {p : PlainWrite}

/-! ## The bytes being sent -/

theorem InstrEffect.keepsTx (h : InstrEffect s i t) (hs : s.status.txact = true) (ht : t.status.txact = true) :
    t.tx = s.tx ∧ t.txLen = s.txLen := by
  cases h with
  | refused | nop | crcWritten | crcInit | sent | armed | judged | configured => exact ⟨rfl, rfl⟩
  | built hidle => simp [hidle.1] at hs
  | aborted | disabled => simp at ht
  | softReset => cases ht

/-- Only BUILD and a reset write TX, and neither leaves a transmission that was going on (R83). -/
theorem EventEffect.keepsTx (h : EventEffect s e t) (hs : s.status.txact = true) (ht : t.status.txact = true) :
    t.tx = s.tx ∧ t.txLen = s.txLen := by
  cases h with
  | reset => cases ht
  | instr _ h => exact h.keepsTx hs ht
  | plain _ h => cases h <;> exact ⟨rfl, rfl⟩
  | kept | risen | taken | completed | turnedRound | dropped | stored | filled | countedTx | timedOut | countedRx | ended =>
    exact ⟨rfl, rfl⟩

/-- Settles O13: no event writes TX in a transmission that goes on. -/
theorem transmittedBytesAreFixed : Obligations.TransmittedBytesAreFixed := by
  intro s t hstep hs ht
  obtain rfl | ⟨e, rest, -, he⟩ := step_effect hstep
  · exact ⟨rfl, rfl⟩
  · exact he.keepsTx (s := s.setPending rest) hs ht

/-! ## The buffer of an open window -/

/-- MAX_RX, RX and RX_LEN are those of before. -/
def SameBuffer (s t : State) : Prop := t.maxRx = s.maxRx ∧ t.rx = s.rx ∧ t.rxDraw = s.rxDraw ∧ t.rxLen = s.rxLen

theorem InstrEffect.sameBuffer (h : InstrEffect s i t) (hs : s.status.rxact = true) (ht : t.status.rxact = true) :
    SameBuffer s t := by
  cases h with
  | refused | nop | crcWritten | crcInit | built | sent | judged | configured => exact ⟨rfl, rfl, rfl, rfl⟩
  | armed hidle => simp [hidle.2] at hs
  | aborted | disabled => simp at ht
  | softReset => cases ht

/-- The host's writes of the buffer are refused in a window (R155). -/
theorem PlainEffect.sameBuffer (h : PlainEffect s p t) (hs : s.status.rxact = true) : SameBuffer s t := by
  cases h with
  | cleared | refused | operands => exact ⟨rfl, rfl, rfl, rfl⟩
  | receiver _ hrx => simp [hrx] at hs

/-- A window is open in one direction only, so no TxTake arms the receiver anew; only a received byte writes RX (R58, R61). -/
theorem EventEffect.sameBuffer (h : EventEffect s e t) (hinv : Inv s) (hs : s.status.rxact = true)
    (ht : t.status.rxact = true) : t.maxRx = s.maxRx ∧ ((∀ b, e ≠ .rxByte b) → SameBuffer s t) := by
  have of_sameBuffer (h : SameBuffer s t) : t.maxRx = s.maxRx ∧ ((∀ b, e ≠ .rxByte b) → SameBuffer s t) :=
    ⟨h.1, fun _ => h⟩
  cases h with
  | reset => cases ht
  | instr _ h => exact of_sameBuffer (h.sameBuffer hs ht)
  | plain _ h => exact of_sameBuffer (h.sameBuffer hs)
  | turnedRound htx => exact absurd ⟨htx, hs⟩ hinv.oneDirection
  | dropped b | stored b | filled b => exact ⟨rfl, fun hb => absurd rfl (hb b)⟩
  | kept | risen | taken | completed | countedTx | timedOut | countedRx | ended => exact of_sameBuffer ⟨rfl, rfl, rfl, rfl⟩

/-- Settles O14: in a window that stays open every effect but that of a received byte keeps the buffer. -/
theorem receiverAloneWritesRxInAWindow : Obligations.ReceiverAloneWritesRxInAWindow := by
  intro s t hinv hstep hs ht
  obtain rfl | ⟨e, rest, hp, he⟩ := step_effect hstep
  · exact ⟨rfl, fun _ => ⟨rfl, rfl, rfl⟩⟩
  · obtain ⟨hmax, hbuffer⟩ := he.sameBuffer (hinv.setPending rest) hs ht
    refine ⟨hmax, fun hno => (hbuffer fun b hb => hno b rest ?_).2⟩
    rw [hp, hb]

/-! ## The sticky flags -/

/-- Every flag of STATUS bits 3 to 8 that is set stays set. -/
structure FlagsKept (s t : State) : Prop where
  done : s.status.done = true → t.status.done = true
  txdone : s.status.txdone = true → t.status.txdone = true
  rxdone : s.status.rxdone = true → t.status.rxdone = true
  rxto : s.status.rxto = true → t.status.rxto = true
  err : s.status.err = true → t.status.err = true
  drop : s.status.drop = true → t.status.drop = true

/-- The bits of the sticky flags (R24). -/
theorem stickyBit_cases {k : Nat} (h3 : 3 ≤ k) (h8 : k ≤ 8) : k = 3 ∨ k = 4 ∨ k = 5 ∨ k = 6 ∨ k = 7 ∨ k = 8 := by
  omega

theorem State.statusWord_done (s : State) : s.statusWord.getLsbD 3 = s.status.done := by
  rw [State.getLsbD_statusWord]; simp

theorem State.statusWord_txdone (s : State) : s.statusWord.getLsbD 4 = s.status.txdone := by
  rw [State.getLsbD_statusWord]; simp

theorem State.statusWord_rxdone (s : State) : s.statusWord.getLsbD 5 = s.status.rxdone := by
  rw [State.getLsbD_statusWord]; simp

theorem State.statusWord_rxto (s : State) : s.statusWord.getLsbD 6 = s.status.rxto := by
  rw [State.getLsbD_statusWord]; simp

theorem State.statusWord_err (s : State) : s.statusWord.getLsbD 7 = s.status.err := by
  rw [State.getLsbD_statusWord]; simp

theorem State.statusWord_drop (s : State) : s.statusWord.getLsbD 8 = s.status.drop := by
  rw [State.getLsbD_statusWord]; simp

theorem FlagsKept.statusBit (h : FlagsKept s t) {k : Nat} (h3 : 3 ≤ k) (h8 : k ≤ 8)
    (hs : s.statusWord.getLsbD k = true) : t.statusWord.getLsbD k = true := by
  obtain ⟨hdone, htxdone, hrxdone, hrxto, herr, hdrop⟩ := h
  obtain rfl | rfl | rfl | rfl | rfl | rfl := stickyBit_cases h3 h8
  · rw [State.statusWord_done] at hs ⊢; exact hdone hs
  · rw [State.statusWord_txdone] at hs ⊢; exact htxdone hs
  · rw [State.statusWord_rxdone] at hs ⊢; exact hrxdone hs
  · rw [State.statusWord_rxto] at hs ⊢; exact hrxto hs
  · rw [State.statusWord_err] at hs ⊢; exact herr hs
  · rw [State.statusWord_drop] at hs ⊢; exact hdrop hs

theorem InstrEffect.flagsKept (h : InstrEffect s i t) (hi : i ≠ .softReset) : FlagsKept s t := by
  cases h with
  | softReset => exact absurd rfl hi
  | refused | nop | crcWritten | crcInit | built | sent | armed | judged | aborted | configured | disabled =>
    constructor <;> simp +contextual

/-- A write of STATUS clears the written bits among 3 to 8, and keeps every other bit (R24). -/
theorem State.getLsbD_statusWord_clearStatus (s : State) (v : Word) (k : Nat) :
    (s.clearStatus v).statusWord.getLsbD k =
      (s.statusWord.getLsbD k && !(decide (3 ≤ k) && decide (k ≤ 8) && v.getLsbD k)) := by
  obtain hlow | ⟨h3, h8⟩ | hhigh : k < 3 ∨ (3 ≤ k ∧ k ≤ 8) ∨ 8 < k := by omega
  · have hne : ∀ j, 3 ≤ j → k ≠ j := fun j hj => by omega
    have h3 : ¬ 3 ≤ k := Nat.not_le.2 hlow
    simp [State.getLsbD_statusWord, State.busy, hne, h3]
  · obtain rfl | rfl | rfl | rfl | rfl | rfl := stickyBit_cases h3 h8
    all_goals
      simp only [State.statusWord_done, State.statusWord_txdone, State.statusWord_rxdone, State.statusWord_rxto,
        State.statusWord_err, State.statusWord_drop]
      simp
  · have h8 : ¬ k ≤ 8 := Nat.not_le.2 hhigh
    simp only [h8, decide_false, Bool.and_false, Bool.false_and, Bool.not_false, Bool.and_true, State.getLsbD_statusWord]
    have hne : ∀ j, j ≤ 8 → k ≠ j := fun j hj => by omega
    simp [hne]

/-- A flag can fall at a write of STATUS or at a reset, and nowhere else (R24). -/
theorem EventEffect.flagsKept_or (h : EventEffect s e t) :
    FlagsKept s t ∨ (∃ v, e = .memWrite ⟨0x001#9, v⟩ ∧ t = s.clearStatus v) ∨
    (∃ v, e = .memWrite ⟨0x000#9, v⟩ ∧ v.getLsbD 15 = true) ∨ e = .rstN false := by
  cases h with
  | reset => exact .inr (.inr (.inr rfl))
  | @instr w i _ hd h =>
    by_cases hi : i = .softReset
    · subst hi
      obtain ⟨hslot, hsrst⟩ := decode_softReset_srst hd
      exact .inr (.inr (.inl ⟨w.value, by rw [← hslot], hsrst⟩))
    · exact .inl (h.flagsKept hi)
  | plain hd h =>
    cases h with
    | cleared v => exact .inr (.inl ⟨v, by rw [decode_status_eq hd], rfl⟩)
    | refused | operands | receiver => exact .inl (by constructor <;> simp +contextual)
  | kept | risen | taken | completed | turnedRound | dropped | stored | filled | countedTx | timedOut | countedRx | ended =>
    exact .inl (by constructor <;> simp +contextual)

/-- Settles O12: an event that is none of the three keeps every flag, and a write of STATUS clears the written ones. -/
theorem stickyFlagsFallOnlyByWriteOrReset : Obligations.StickyFlagsFallOnlyByWriteOrReset := by
  intro s t k h3 h8 hstep hs ht
  obtain rfl | ⟨e, rest, hp, he⟩ := step_effect hstep
  · simp [hs] at ht
  obtain hkept | ⟨v, rfl, rfl⟩ | ⟨v, rfl, hsrst⟩ | rfl := he.flagsKept_or
  · have := hkept.statusBit h3 h8 hs
    simp [this] at ht
  · replace hs : (s.setPending rest).statusWord.getLsbD k = true := hs
    rw [State.getLsbD_statusWord_clearStatus, hs] at ht
    exact .inl ⟨v, rest, hp, by simpa [h3, h8] using ht⟩
  · exact .inr (.inl ⟨v, rest, hp, hsrst⟩)
  · exact .inr (.inr ⟨rest, hp⟩)

/-! ## The sequencer -/

/-- The transitions of R58 from s to t at the event e. -/
def SpecTransition (s : State) (e : Event) (t : State) : Prop :=
  (s.fsm = .idle ∧ t.fsm = .tx ∧ e = .memWrite ⟨0x003#9, 0x0003#16⟩) ∨
  (s.fsm = .idle ∧ t.fsm = .rx ∧ e = .memWrite ⟨0x003#9, 0x0004#16⟩) ∨
  (s.fsm = .tx ∧ t.fsm = .rx ∧ e = .txTake ∧ s.txPos.val + 1 = s.txLen.val ∧ s.ctrl.autorx = true) ∨
  (s.fsm = .tx ∧ t.fsm = .idle ∧
    ((e = .txTake ∧ s.txPos.val + 1 = s.txLen.val ∧ s.ctrl.autorx = false) ∨
     (e = .tick ∧ s.txTimeout.toNat ≤ s.txElapsed.toNat + 1) ∨
     e = .memWrite ⟨0x003#9, 0x0007#16⟩ ∨
     (∃ v : Word, e = .memWrite ⟨0x000#9, v⟩ ∧ (v.getLsbD 15 = true ∨ v.getLsbD 0 = false)) ∨
     e = .rstN false)) ∨
  (s.fsm = .rx ∧ t.fsm = .idle ∧
    ((∃ b, e = .rxByte b ∧ s.rxLen.val + 1 = s.maxRx.val) ∨
     e = .tick ∨
     e = .memWrite ⟨0x003#9, 0x0007#16⟩ ∨
     (∃ v : Word, e = .memWrite ⟨0x000#9, v⟩ ∧ (v.getLsbD 15 = true ∨ v.getLsbD 0 = false)) ∨
     e = .rstN false))

/-- The events that stop either transfer: ABORT, a CTRL write with SRST or without EN, and a fall of `rst_n` (R58). -/
def StopsTransfer (e : Event) : Prop :=
  e = .memWrite ⟨0x003#9, 0x0007#16⟩ ∨
  (∃ v : Word, e = .memWrite ⟨0x000#9, v⟩ ∧ (v.getLsbD 15 = true ∨ v.getLsbD 0 = false)) ∨
  e = .rstN false

theorem State.fsm_of_idle (h : idle s) : s.fsm = .idle := by
  obtain ⟨htx, hrx⟩ := h
  simp [State.fsm, htx, hrx]

theorem State.fsm_of_txact (h : s.status.txact = true) : s.fsm = .tx := if_pos h

theorem State.fsm_of_rxact (htx : s.status.txact = false) (hrx : s.status.rxact = true) : s.fsm = .rx := by
  simp [State.fsm, htx, hrx]

/-- Where neither TXACT nor RXACT changes, the sequencer stays (R58). -/
theorem State.fsm_congr (htx : t.status.txact = s.status.txact) (hrx : t.status.rxact = s.status.rxact) :
    t.fsm = s.fsm := by
  rw [State.fsm, State.fsm, htx, hrx]

/-- An event that stops either transfer leads from TX or from RX to IDLE. -/
theorem specTransition_of_stops (he : StopsTransfer e) (ht : idle t) (hne : t.fsm ≠ s.fsm) : SpecTransition s e t := by
  rw [State.fsm_of_idle ht] at hne
  cases hs : s.fsm with
  | idle => exact absurd hs.symm hne
  | tx => exact .inr (.inr (.inr (.inl ⟨hs, State.fsm_of_idle ht, .inr (.inr he)⟩)))
  | rx => exact .inr (.inr (.inr (.inr ⟨hs, State.fsm_of_idle ht, .inr (.inr he)⟩)))

/-- An instruction moves the sequencer when it starts or stops a transfer (R58). -/
theorem InstrEffect.specTransition {w : BusWrite} (h : InstrEffect s i t) (hd : decode w = .instr i)
    (hne : t.fsm ≠ s.fsm) : SpecTransition s (.memWrite w) t := by
  cases h with
  | refused | nop | crcWritten | crcInit | built | judged | configured => exact absurd (State.fsm_congr rfl rfl) hne
  | sent hs =>
    exact .inl ⟨State.fsm_of_idle hs, rfl, congrArg _ (eq_encode_of_command hd rfl)⟩
  | armed hs =>
    exact .inr (.inl ⟨State.fsm_of_idle hs, State.fsm_of_rxact hs.1 rfl, congrArg _ (eq_encode_of_command hd rfl)⟩)
  | aborted =>
    exact specTransition_of_stops (.inl (congrArg _ (eq_encode_of_command hd rfl))) (by simp [idle]) hne
  | softReset =>
    obtain ⟨hslot, hsrst⟩ := decode_softReset_srst hd
    exact specTransition_of_stops (.inr (.inl ⟨w.value, by rw [← hslot], .inl hsrst⟩)) ⟨rfl, rfl⟩ hne
  | disabled =>
    obtain ⟨hslot, hen⟩ := decode_ctrlWrite_en hd
    exact specTransition_of_stops (.inr (.inl ⟨w.value, by rw [← hslot], .inr hen⟩)) (by simp [idle]) hne

/-- An event moves the sequencer only along R58: the invariant keeps TX and RX apart. -/
theorem EventEffect.specTransition (h : EventEffect s e t) (hinv : Inv s) (hne : t.fsm ≠ s.fsm) :
    SpecTransition s e t := by
  have hrx_of_tx (htx : s.status.txact = true) : s.status.rxact = false :=
    Bool.eq_false_iff.2 fun hrx => hinv.oneDirection ⟨htx, hrx⟩
  have htx_of_rx (hrx : s.status.rxact = true) : s.status.txact = false :=
    Bool.eq_false_iff.2 fun htx => hinv.oneDirection ⟨htx, hrx⟩
  cases h with
  | kept | risen | taken | dropped | stored | countedTx | countedRx => exact absurd (State.fsm_congr rfl rfl) hne
  | reset => exact specTransition_of_stops (.inr (.inr rfl)) ⟨rfl, rfl⟩ hne
  | instr hd h => exact h.specTransition hd hne
  | plain _ h => cases h <;> exact absurd (State.fsm_congr rfl rfl) hne
  | completed htx _ hlast hauto =>
    exact .inr (.inr (.inr (.inl ⟨State.fsm_of_txact htx, State.fsm_of_idle ⟨rfl, hrx_of_tx htx⟩,
      .inl ⟨rfl, hlast, hauto⟩⟩)))
  | turnedRound htx _ hlast hauto =>
    exact .inr (.inr (.inl ⟨State.fsm_of_txact htx, State.fsm_of_rxact rfl rfl, rfl, hlast, hauto⟩))
  | filled b hrx _ hfull =>
    exact .inr (.inr (.inr (.inr ⟨State.fsm_of_rxact (htx_of_rx hrx) hrx, State.fsm_of_idle ⟨htx_of_rx hrx, rfl⟩,
      .inl ⟨b, rfl, hfull⟩⟩)))
  | timedOut htx ht =>
    have hle : s.txTimeout.toNat ≤ s.txElapsed.toNat + 1 := by
      rw [BitVec.le_def, satInc_toNat] at ht
      omega
    exact .inr (.inr (.inr (.inl ⟨State.fsm_of_txact htx, State.fsm_of_idle ⟨rfl, hrx_of_tx htx⟩,
      .inr (.inl ⟨rfl, hle⟩)⟩)))
  | ended htx hrx =>
    exact .inr (.inr (.inr (.inr ⟨State.fsm_of_rxact htx hrx, State.fsm_of_idle ⟨htx, rfl⟩, .inr (.inl rfl)⟩)))

/-- Settles O11: a step that moves the sequencer takes an event, and that event moves it along R58. -/
theorem sequencerTransitionsAreThoseOfTheSpec : Obligations.SequencerTransitionsAreThoseOfTheSpec := by
  intro s t hinv hstep hne
  obtain rfl | ⟨e, rest, hp, he⟩ := step_effect hstep
  · exact absurd rfl hne
  · exact ⟨e, rest, hp, he.specTransition (hinv.setPending rest) hne⟩

end Sys2Proof.Machine
end

-- ==== Proofs: noninterference (O15, O16) ====
section
/-! CTRL.BAUD enters no rule (R137), and no rule reads RX beyond the frame (R187). Each operation takes the same branch in two
machines that differ in the forgotten fields alone, so the forgotten outcomes are equal branch by branch. -/

namespace Sys2Proof.Machine

/-! ## CTRL.BAUD -/

/-- The machine with another BAUD. -/
def State.setBaud (b : Baud) (s : State) : State := { s with ctrl.baud := b }

section Baud

variable (s : State) (b : Baud)

theorem forgetBaud_exec (i : Instr) : forgetBaud (exec i (s.setBaud b)) = forgetBaud (exec i s) := by
  cases i with
  | nop | crcInit | crcUpdate | crcWrite | softReset | illegalCmd => rfl
  | build => simp only [exec, execBuild, apply_ite forgetBaud]; rfl
  | send => simp only [exec, execSend, apply_ite forgetBaud]; rfl
  | recv => simp only [exec, execRecv, apply_ite forgetBaud]; rfl
  | validateRtu => simp only [exec, execValidateRtu, apply_ite forgetBaud]; rfl
  | validateTcp => simp only [exec, execValidateTcp, apply_ite forgetBaud]; rfl
  | abort => simp only [exec_abort, State.abortTransfer_eq]; rfl
  | ctrlWrite => simp only [exec, execCtrlWrite, apply_ite forgetBaud, State.abortTransfer_eq]; rfl

theorem setBaud_writePlain (p : PlainWrite) : (s.setBaud b).writePlain p = (s.writePlain p).setBaud b := by
  cases p with
  | rxLen v => simp only [State.writePlain, State.writeRxLen, apply_ite (State.setBaud b), apply_dite (State.setBaud b)]; rfl
  | maxRx v => simp only [State.writePlain, State.writeMaxRx, apply_ite (State.setBaud b), apply_dite (State.setBaud b)]; rfl
  | rxbuf i c => simp only [State.writePlain, State.writeRxbuf, apply_ite (State.setBaud b)]; rfl
  | status | irqEn | unitId | func | startAddr | quantity | expUnit | txTimeout | rxTimeout | gapTicks | ignored => rfl

theorem setBaud_tick : tick (s.setBaud b) = (tick s).setBaud b := by
  simp only [tick, State.tickTx, State.tickRx, apply_ite (State.setBaud b)]
  rfl

theorem forgetBaud_txTake : forgetBaud (txTake (s.setBaud b)) = forgetBaud (txTake s) := by
  simp only [txTake, State.txComplete, apply_ite forgetBaud, apply_dite forgetBaud, apply_ite Host.Outcome.next]
  rfl

theorem forgetBaud_rxByte (c : Byte) : forgetBaud (rxByte c (s.setBaud b)) = forgetBaud (rxByte c s) := by
  simp only [rxByte, apply_ite forgetBaud, apply_dite forgetBaud, apply_ite Host.Outcome.next]
  rfl

/-- CTRL is the one slot that shows BAUD (R23). -/
theorem setBaud_readSlot {sl : Slot} (h : sl ≠ .reg .ctrl) : (s.setBaud b).readSlot sl = s.readSlot sl := by
  cases sl with
  | reg r =>
    cases r with
    | ctrl => exact absurd rfl h
    | _ => rfl
  | txbuf | rxbuf | reserved => rfl

theorem forgetBaud_resetPin (level : Bool) :
    forgetBaud (.next (resetPin level (s.setBaud b))) = forgetBaud (.next (resetPin level s)) := by
  simp only [resetPin, apply_ite Host.Outcome.next, apply_ite forgetBaud]
  rfl

theorem forgetBaud_runEvent {e : Event} (he : e ≠ .memRead 0x000#9) :
    forgetBaud (runEvent e (s.setBaud b)) = forgetBaud (runEvent e s) := by
  cases e with
  | memWrite w =>
    simp only [runEvent, hostWrite]
    split
    · exact forgetBaud_exec s b _
    · rw [setBaud_writePlain]; rfl
  | memRead idx =>
    have hslot : slotOf idx ≠ .reg .ctrl := fun h => he (congrArg Event.memRead (eq_slot_of_slotOf h))
    simp only [runEvent, hostRead, setBaud_readSlot s b hslot]
    rfl
  | txTake => exact forgetBaud_txTake s b
  | rxByte c => exact forgetBaud_rxByte s b c
  | tick => rw [runEvent, setBaud_tick]; rfl
  | rstN level => exact forgetBaud_resetPin s b level

theorem forgetBaud_heldEvent (e : Event) :
    forgetBaud (.next (heldEvent e (s.setBaud b))) = forgetBaud (.next (heldEvent e s)) := by
  cases e with
  | rstN level => exact forgetBaud_resetPin s b level
  | memWrite | memRead | txTake | rxByte | tick => rfl

end Baud

/-- Settles O15: BAUD decides no branch of any operation, and is forgotten afterwards. -/
theorem baudAffectsNoRule : Obligations.BaudAffectsNoRule := by
  intro s b e he
  change forgetBaud (takeEvent e (s.setBaud b)) = forgetBaud (takeEvent e s)
  cases hi : s.rstHigh with
  | true => rw [takeEvent_high e hi, takeEvent_high (s := s.setBaud b) e hi, forgetBaud_runEvent s b he]
  | false => rw [takeEvent_low e hi, takeEvent_low (s := s.setBaud b) e hi, forgetBaud_heldEvent]

/-! ## RX beyond the frame -/

/-- The machine with another receive buffer and draw. -/
def State.replaceRx (m : Memory) (d : Nat) (s : State) : State := { s with rx := m, rxDraw := d }

@[simp] theorem State.replaceRx_rxLen (m : Memory) (d : Nat) (s : State) : (s.replaceRx m d).rxLen = s.rxLen := rfl

section Frame

variable {s : State} {m : Memory} {d : Nat} (h : ∀ a, a < s.rxLen.val → (s.replaceRx m d).rxAt a = s.rxAt a)
include h

/-! What the validators read of RX stands below RX_LEN (R142, R149). -/

theorem replaceRx_receivedCrc (hn : 4 ≤ s.rxLen.val) :
    (s.replaceRx m d).receivedCrc s.rxLen.val = s.receivedCrc s.rxLen.val := by
  rw [State.receivedCrc, State.receivedCrc, h _ (by omega), h _ (by omega)]

theorem replaceRx_computedCrc (hn : 4 ≤ s.rxLen.val) :
    (s.replaceRx m d).computedCrc s.rxLen.val = s.computedCrc s.rxLen.val := by
  refine congrArg crc16 (List.map_congr_left fun a ha => h a ?_)
  have := List.mem_range.1 ha
  omega

theorem replaceRx_rtuVerdict (hn : 4 ≤ s.rxLen.val) :
    (s.replaceRx m d).rtuVerdict s.rxLen.val = s.rtuVerdict s.rxLen.val := by
  rw [State.rtuVerdict, replaceRx_receivedCrc h hn, replaceRx_computedCrc h hn, h 0 (by omega), h 1 (by omega)]
  rfl

theorem replaceRx_rxWord {a : Nat} (ha : a + 1 < s.rxLen.val) : (s.replaceRx m d).rxWord a = s.rxWord a := by
  rw [State.rxWord, State.rxWord, h _ (by omega), h _ (by omega)]

theorem replaceRx_tcpVerdict (hn : 8 ≤ s.rxLen.val) :
    (s.replaceRx m d).tcpVerdict s.rxLen.val = s.tcpVerdict s.rxLen.val := by
  rw [State.tcpVerdict, replaceRx_rxWord h (by omega), replaceRx_rxWord h (by omega), h 6 (by omega), h 7 (by omega)]
  rfl

theorem forgetRx_validateRtu :
    forgetRx (exec .validateRtu (s.replaceRx m d)) = forgetRx (exec .validateRtu s) := by
  obtain hb | hs := busy_or_idle s
  · rw [exec_validateRtu_busy hb, exec_validateRtu_busy (s := s.replaceRx m d) hb]; rfl
  obtain hn | hn := Nat.lt_or_ge s.rxLen.val 4
  · rw [exec_validateRtu_short hs hn, exec_validateRtu_short (s := s.replaceRx m d) hs hn]; rfl
  · rw [exec_validateRtu_long hs hn, exec_validateRtu_long (s := s.replaceRx m d) hs hn]
    rw [State.replaceRx_rxLen, replaceRx_rtuVerdict h hn, replaceRx_receivedCrc h hn, replaceRx_computedCrc h hn,
      h 0 (by omega), h 1 (by omega)]
    rfl

theorem forgetRx_validateTcp :
    forgetRx (exec .validateTcp (s.replaceRx m d)) = forgetRx (exec .validateTcp s) := by
  obtain hb | hs := busy_or_idle s
  · rw [exec_validateTcp_busy hb, exec_validateTcp_busy (s := s.replaceRx m d) hb]; rfl
  obtain hn | hn := Nat.lt_or_ge s.rxLen.val 8
  · rw [exec_validateTcp_short hs hn, exec_validateTcp_short (s := s.replaceRx m d) hs hn]; rfl
  · rw [exec_validateTcp_long hs hn, exec_validateTcp_long (s := s.replaceRx m d) hs hn]
    rw [State.replaceRx_rxLen, replaceRx_tcpVerdict h hn, replaceRx_rxWord h (a := 0) (by omega),
      replaceRx_rxWord h (a := 2) (by omega), replaceRx_rxWord h (a := 4) (by omega), h 6 (by omega), h 7 (by omega)]
    rfl

theorem forgetRx_exec (i : Instr) : forgetRx (exec i (s.replaceRx m d)) = forgetRx (exec i s) := by
  cases i with
  | nop | crcInit | crcUpdate | crcWrite | softReset | illegalCmd => rfl
  | build => simp only [exec, execBuild, apply_ite forgetRx]; rfl
  | send => simp only [exec, execSend, apply_ite forgetRx]; rfl
  | recv => simp only [exec, execRecv, apply_ite forgetRx]; rfl
  | validateRtu => exact forgetRx_validateRtu h
  | validateTcp => exact forgetRx_validateTcp h
  | abort => simp only [exec_abort, State.abortTransfer_eq]; rfl
  | ctrlWrite => simp only [exec, execCtrlWrite, apply_ite forgetRx, State.abortTransfer_eq]; rfl

end Frame

section Events

variable (s : State) (m : Memory) (d : Nat)

theorem forgetRx_writePlain (p : PlainWrite) :
    forgetRx (.next ((s.replaceRx m d).writePlain p)) = forgetRx (.next (s.writePlain p)) := by
  cases p with
  | rxLen v =>
    simp only [State.writePlain, State.writeRxLen, apply_ite Host.Outcome.next, apply_dite Host.Outcome.next,
      apply_ite forgetRx, apply_dite forgetRx]
    rfl
  | maxRx v =>
    simp only [State.writePlain, State.writeMaxRx, apply_ite Host.Outcome.next, apply_dite Host.Outcome.next,
      apply_ite forgetRx, apply_dite forgetRx]
    rfl
  | rxbuf i c =>
    simp only [State.writePlain, State.writeRxbuf, apply_ite Host.Outcome.next, apply_ite forgetRx]
    rfl
  | status | irqEn | unitId | func | startAddr | quantity | expUnit | txTimeout | rxTimeout | gapTicks | ignored => rfl

theorem replaceRx_tick : tick (s.replaceRx m d) = (tick s).replaceRx m d := by
  simp only [tick, State.tickTx, State.tickRx, apply_ite (State.replaceRx m d)]
  rfl

theorem forgetRx_txTake : forgetRx (txTake (s.replaceRx m d)) = forgetRx (txTake s) := by
  simp only [txTake, State.txComplete, apply_ite forgetRx, apply_dite forgetRx, apply_ite Host.Outcome.next]
  rfl

theorem forgetRx_rxByte (c : Byte) : forgetRx (rxByte c (s.replaceRx m d)) = forgetRx (rxByte c s) := by
  simp only [rxByte, apply_ite forgetRx, apply_dite forgetRx, apply_ite Host.Outcome.next]
  rfl

/-- Below 0x100 no slot shows RX (R57, R67). -/
theorem replaceRx_readSlot {idx : SlotIdx} (hidx : idx.toNat < 0x100) :
    (s.replaceRx m d).readSlot (slotOf idx) = s.readSlot (slotOf idx) := by
  have hno : ∀ i, slotOf idx ≠ .rxbuf i := fun i hi => by
    unfold slotOf at hi
    split at hi
    · omega
    · split at hi
      · cases hi
      · split at hi <;> cases hi
  cases hsl : slotOf idx with
  | reg r => cases r <;> rfl
  | rxbuf i => exact absurd hsl (hno i)
  | txbuf | reserved => rfl

theorem forgetRx_resetPin (level : Bool) :
    forgetRx (.next (resetPin level (s.replaceRx m d))) = forgetRx (.next (resetPin level s)) := by
  simp only [resetPin, apply_ite Host.Outcome.next, apply_ite forgetRx]
  rfl

theorem forgetRx_heldEvent (e : Event) :
    forgetRx (.next (heldEvent e (s.replaceRx m d))) = forgetRx (.next (heldEvent e s)) := by
  cases e with
  | rstN level => exact forgetRx_resetPin s m d level
  | memWrite | memRead | txTake | rxByte | tick => rfl

variable {s m d}

theorem forgetRx_runEvent {e : Event} (h : ∀ a, a < s.rxLen.val → (s.replaceRx m d).rxAt a = s.rxAt a)
    (he : ∀ idx : SlotIdx, e = .memRead idx → idx.toNat < 0x100) :
    forgetRx (runEvent e (s.replaceRx m d)) = forgetRx (runEvent e s) := by
  cases e with
  | memWrite w =>
    simp only [runEvent, hostWrite]
    split
    · exact forgetRx_exec h _
    · exact forgetRx_writePlain s m d _
  | memRead idx =>
    simp only [runEvent, hostRead, replaceRx_readSlot s m d (he idx rfl)]
    rfl
  | txTake => exact forgetRx_txTake s m d
  | rxByte c => exact forgetRx_rxByte s m d c
  | tick => rw [runEvent, replaceRx_tick]; rfl
  | rstN level => exact forgetRx_resetPin s m d level

theorem forgetRx_takeEvent {e : Event} (h : ∀ a, a < s.rxLen.val → (s.replaceRx m d).rxAt a = s.rxAt a)
    (he : ∀ idx : SlotIdx, e = .memRead idx → idx.toNat < 0x100) :
    forgetRx (takeEvent e (s.replaceRx m d)) = forgetRx (takeEvent e s) := by
  cases hi : s.rstHigh with
  | true => rw [takeEvent_high e hi, takeEvent_high (s := s.replaceRx m d) e hi, forgetRx_runEvent h he]
  | false => rw [takeEvent_low e hi, takeEvent_low (s := s.replaceRx m d) e hi, forgetRx_heldEvent]

end Events

/-- With `rst_n` high, a run takes a read by putting the slot's value on the bus (R68). -/
theorem afterEvents_cons_memRead {s : State} {idx : SlotIdx} {es : List Event} (hi : s.rstHigh = true) :
    afterEvents (.memRead idx :: es) s = afterEvents es { s with busRdata := s.readSlot (slotOf idx) } := by
  have hread : (s.setPending es).readSlot (slotOf idx) = s.readSlot (slotOf idx) :=
    State.readSlot_setPending_busRdata es s.busRdata (slotOf idx)
  rw [afterEvents_cons (takeEvent_high (s := s.setPending es) _ hi), hostRead, hread]
  rfl

/-- A byte that nothing has written reads as the free draw (R187). -/
theorem State.rxAt_of_unwritten {s : State} {a : Nat} (h : Memory.read s.rx a = none) :
    s.rxAt a = Config.rxPowerOn s.rxDraw a := by
  rw [State.rxAt, h, Option.getD_none]

/-- Settles O16: a validator reads RX below RX_LEN only, and right after reset there is no such byte. -/
theorem bytesBeyondTheFrameAffectNoRule : Obligations.BytesBeyondTheFrameAffectNoRule := by
  refine ⟨fun s m d e h he => forgetRx_takeEvent h he, rfl, ⟨_, exec_validateRtu_short ⟨rfl, rfl⟩ (by decide), rfl⟩,
    ⟨_, exec_validateTcp_short ⟨rfl, rfl⟩ (by decide), rfl⟩, fun i => ?draw⟩
  case draw =>
    refine ⟨_, (afterEvents_cons_memRead rfl).trans (afterEvents_nil _), ?_⟩
    rw [State.setPending_busRdata, slotOf_rxbuf, State.readSlot, State.rxAt_of_unwritten rfl]

end Sys2Proof.Machine
end

-- ==== Proofs: runs of line events, reads and ticks (O29, O31, O34, O35) ====
section
/-! A transfer, once started, under events that are no host write: one induction over the run for a predicate of the state and
the events still to come, then the bytes that leave (R122), the ends of a window and of a transmission (R194), and the
bytes that arrive (R136). -/

namespace Sys2Proof.Machine

variable {s t : State} {e : Event} {es : List Event}

/-! ## The induction -/

/-- No passive event touches the `rst_n` pin. -/
theorem EventEffect.rstHigh_of_passive (h : EventEffect s e t) (he : e.passive = true) : t.rstHigh = s.rstHigh := by
  cases h with
  | reset | risen | instr | plain => cases he
  | kept | taken | completed | turnedRound | dropped | stored | filled | countedTx | timedOut | countedRx | ended => rfl

/-- A predicate of the state and the events still to come that every passive event hands on, and to which the event list in the
state means nothing, holds at the end of a run of passive events. -/
theorem Inv.run_passive {I : List Event → State → Prop} (hpending : ∀ es fs s, I es s → I es (s.setPending fs))
    (hstep : ∀ e es s t, Inv s → e.passive = true → s.rstHigh = true → EventEffect s e t → I (e :: es) s → I es t)
    (hs : Inv s) (hi : s.rstHigh = true) (hes : ∀ e ∈ es, e.passive = true) (h : I es s) :
    ∃ t, Machine.afterEvents es s = .next t ∧ I [] t := by
  induction es generalizing s with
  | nil => exact ⟨_, afterEvents_nil s, hpending _ _ _ h⟩
  | cons e es ih =>
    obtain ⟨he, hes⟩ := List.forall_mem_cons.1 hes
    obtain ⟨t, ht, hinv⟩ := (hs.setPending es).takeEvent e
    have heffect := takeEvent_effect ht
    rw [afterEvents_cons ht]
    exact ih hinv ((heffect.rstHigh_of_passive he).trans hi) hes
      (hstep _ _ _ _ (hs.setPending es) he hi heffect (hpending _ _ _ h))

/-! ## Counting events -/

theorem tickCount_cons (e : Event) (es : List Event) :
    tickCount (e :: es) = tickCount es + if e = .tick then 1 else 0 := by
  simp [tickCount, List.countP_cons]

theorem takeCount_cons (e : Event) (es : List Event) :
    takeCount (e :: es) = takeCount es + if e = .txTake then 1 else 0 := by
  simp [takeCount, List.countP_cons]

/-- Short of 0xFFFF a count is not saturated (R128). -/
theorem satInc_toNat_of_lt {v : Word} (h : v.toNat < 0xFFFF) : (satInc v).toNat = v.toNat + 1 := by
  rw [satInc_toNat]
  omega

/-! ## Passive events outside a transmission -/

/-- All that a transmission goes on with is as before. -/
structure SameTransmission (s t : State) : Prop where
  txact : t.status.txact = s.status.txact
  tx : t.tx = s.tx
  txLen : t.txLen = s.txLen
  txPos : t.txPos = s.txPos
  txTimeout : t.txTimeout = s.txTimeout
  txElapsed : t.txElapsed = s.txElapsed
  wire : t.wire = s.wire
  errCode : t.errCode = s.errCode

/-- Only TxTake and Tick go on with a transmission. -/
theorem EventEffect.sameTransmission (h : EventEffect s e t) (he : e.passive = true)
    (hidle : s.status.txact = false ∨ e ≠ .txTake ∧ e ≠ .tick) : SameTransmission s t := by
  have hno (htx : s.status.txact = true) (hev : e = .txTake ∨ e = .tick) : False := by
    obtain hidle | ⟨htake, htick⟩ := hidle
    · simp [htx] at hidle
    · exact hev.elim htake htick
  cases h with
  | reset | risen | instr | plain => cases he
  | taken htx | completed htx | turnedRound htx => exact (hno htx (.inl rfl)).elim
  | countedTx htx | timedOut htx => exact (hno htx (.inr rfl)).elim
  | kept | dropped | stored | filled | countedRx | ended => constructor <;> rfl

theorem EventEffect.flagsKept_of_passive (h : EventEffect s e t) (he : e.passive = true) : FlagsKept s t := by
  obtain hkept | ⟨v, rfl, -⟩ | ⟨v, rfl, -⟩ | rfl := h.flagsKept_or
  · exact hkept
  all_goals cases he

/-! ## The end of a window -/

/-- The window has ended, with RXDONE and DONE. -/
def WindowEnded (s : State) : Prop :=
  s.status.txact = false ∧ s.status.rxact = false ∧ s.status.rxdone = true ∧ s.status.done = true

theorem EventEffect.windowEnded (h : EventEffect s e t) (he : e.passive = true) (hs : WindowEnded s) : WindowEnded t := by
  obtain ⟨htx, hrx, hrxdone, hdone⟩ := hs
  have hflags := h.flagsKept_of_passive he
  refine ⟨(h.sameTransmission he (.inl htx)).txact.trans htx, ?_, hflags.rxdone hrxdone, hflags.done hdone⟩
  cases h with
  | reset | risen | instr | plain => cases he
  | turnedRound htx' => simp [htx] at htx'
  | stored _ hrx' | filled _ hrx' | countedRx _ hrx' | ended _ hrx' => simp [hrx] at hrx'
  | kept | taken | completed | dropped | countedTx | timedOut => exact hrx

/-- The window is open and the ticks to come suffice to end it, or it has ended. -/
def WindowEnding (es : List Event) (s : State) : Prop :=
  WindowEnded s ∨ s.status.rxact = true ∧ s.rxElapsed.toNat < max s.rxTimeout.toNat 1 ∧
    max s.rxTimeout.toNat 1 ≤ s.rxElapsed.toNat + tickCount es

/-- A tick counts RX_ELAPSED up or ends the window, and no other passive event touches the count (R128, R131). -/
theorem WindowEnding.step (h : WindowEnding (e :: es) s) (hinv : Inv s) (he : e.passive = true) (hi : s.rstHigh = true)
    (heffect : EventEffect s e t) : WindowEnding es t := by
  obtain h | ⟨hrx, hlt, hle⟩ := h
  · exact .inl (heffect.windowEnded he h)
  have htx : s.status.txact = false := Bool.eq_false_iff.2 fun htx => hinv.oneDirection ⟨htx, hrx⟩
  rw [tickCount_cons] at hle
  cases heffect with
  | reset | risen | instr | plain => cases he
  | taken htx' | completed htx' | turnedRound htx' | countedTx htx' | timedOut htx' => simp [htx] at htx'
  | dropped _ hrx' => simp [hrx] at hrx'
  | kept _ _ _ htick =>
    have hno : e ≠ .tick := fun he => by simpa [hrx] using (htick hi he).2
    exact .inr ⟨hrx, hlt, by simpa [hno] using hle⟩
  | stored => exact .inr ⟨hrx, hlt, by simpa using hle⟩
  | filled => exact .inl ⟨htx, rfl, by simp, by simp⟩
  | ended _ _ _ hr => exact .inl ⟨htx, rfl, by simp [hr], by simp [hr]⟩
  | countedRx _ _ ht =>
    have hel : s.countRx.rxElapsed.toNat = s.rxElapsed.toNat + 1 := by
      rw [State.countRx_rxElapsed]
      exact satInc_toNat_of_lt (by omega)
    rw [BitVec.lt_def, ← State.countRx_rxElapsed, hel] at ht
    refine .inr ⟨hrx, ?_, ?_⟩
    all_goals simp only [State.countRx_rxTimeout, hel, if_true] at *; omega

/-- Settles O34: every tick of an open window counts, and the count cannot pass the timeout. -/
theorem receiveWindowEnds : Obligations.ReceiveWindowEnds := by
  intro s es hs hi hrx hel hes hle
  have hstart : WindowEnding es s := .inr ⟨hrx,
    by rw [hel]; exact Nat.lt_of_lt_of_le Nat.zero_lt_one (Nat.le_max_right _ _), by simpa [hel] using hle⟩
  obtain ⟨t, ht, hend | ⟨-, hlt, hle⟩⟩ := hs.run_passive (I := WindowEnding) (fun _ _ _ h => h)
    (fun _ _ _ _ hinv he hi heffect h => h.step hinv he hi heffect) hi hes hstart
  · obtain ⟨-, hrx, hrxdone, hdone⟩ := hend
    exact ⟨t, ht, hrx, hrxdone, hdone⟩
  · exact absurd (Nat.lt_of_lt_of_le hlt hle) (Nat.lt_irrefl _)

/-! ## The end of a transmission -/

/-- The transmission has ended, with DONE: complete, or by the write timeout. -/
def SendEnded (s : State) : Prop :=
  s.status.txact = false ∧ s.status.done = true ∧
    ((s.status.txdone = true ∧ s.txPos.val = 8) ∨ (s.status.err = true ∧ s.errCode = .txTimeout))

theorem EventEffect.sendEnded (h : EventEffect s e t) (he : e.passive = true) (hs : SendEnded s) : SendEnded t := by
  obtain ⟨htx, hdone, hend⟩ := hs
  have hflags := h.flagsKept_of_passive he
  have hsame := h.sameTransmission he (.inl htx)
  refine ⟨hsame.txact.trans htx, hflags.done hdone, ?_⟩
  obtain ⟨htxdone, hpos⟩ | ⟨herr, hcode⟩ := hend
  · exact .inl ⟨hflags.txdone htxdone, hsame.txPos ▸ hpos⟩
  · exact .inr ⟨hflags.err herr, hsame.errCode.trans hcode⟩

/-- The transmission goes on and the ticks to come suffice to end it, or it has ended. -/
def SendEnding (es : List Event) (s : State) : Prop :=
  SendEnded s ∨ s.status.txact = true ∧ s.txElapsed.toNat < max s.txTimeout.toNat 1 ∧
    max s.txTimeout.toNat 1 ≤ s.txElapsed.toNat + tickCount es

/-- A frame that is sent holds 8 bytes (R35). -/
theorem Inv.txLen_of_sending (hinv : Inv s) (htx : s.status.txact = true) : s.txLen.val = 8 := by
  have := hinv.sending htx
  exact hinv.txLenValues.resolve_left (by omega)

/-- A tick counts TX_ELAPSED up or stops the transfer, and no other passive event touches the count (R121, R128). -/
theorem SendEnding.step (h : SendEnding (e :: es) s) (hinv : Inv s) (he : e.passive = true) (hi : s.rstHigh = true)
    (heffect : EventEffect s e t) : SendEnding es t := by
  obtain h | ⟨htx, hlt, hle⟩ := h
  · exact .inl (heffect.sendEnded he h)
  have hlen := hinv.txLen_of_sending htx
  rw [tickCount_cons] at hle
  cases heffect with
  | reset | risen | instr | plain => cases he
  | countedRx htx' | ended htx' => simp [htx] at htx'
  | kept _ _ _ htick =>
    have hno : e ≠ .tick := fun he => by simpa [htx] using (htick hi he).1
    exact .inr ⟨htx, hlt, by simpa [hno] using hle⟩
  | dropped | stored | filled | taken => exact .inr ⟨htx, hlt, by simpa using hle⟩
  | completed _ _ hlast | turnedRound _ _ hlast => exact .inl ⟨rfl, rfl, .inl ⟨rfl, hlast.trans hlen⟩⟩
  | timedOut => exact .inl ⟨rfl, rfl, .inr ⟨rfl, rfl⟩⟩
  | countedTx _ ht =>
    have hel : s.countTx.txElapsed.toNat = s.txElapsed.toNat + 1 := by
      rw [State.countTx_txElapsed]
      exact satInc_toNat_of_lt (by omega)
    rw [BitVec.lt_def, ← State.countTx_txElapsed, hel] at ht
    refine .inr ⟨htx, ?_, ?_⟩
    all_goals simp only [State.countTx_txTimeout, hel, if_true] at *; omega

/-- Settles O35: every tick of a transmission counts, and the count cannot pass the timeout. -/
theorem transmissionEnds : Obligations.TransmissionEnds := by
  intro s es hs hi htx hel hes hle
  have hstart : SendEnding es s := .inr ⟨htx,
    by rw [hel]; exact Nat.lt_of_lt_of_le Nat.zero_lt_one (Nat.le_max_right _ _), by simpa [hel] using hle⟩
  obtain ⟨t, ht, hend | ⟨-, hlt, hle⟩⟩ := hs.run_passive (I := SendEnding) (fun _ _ _ h => h)
    (fun _ _ _ _ hinv he hi heffect h => h.step hinv he hi heffect) hi hes hstart
  · exact ⟨t, ht, hend⟩
  · exact absurd (Nat.lt_of_lt_of_le hlt hle) (Nat.lt_irrefl _)

/-! ## The bytes that leave -/

/-- Of a frame of 8 bytes the byte TX[TX_POS] is due while a byte is left, the ticks to come do not reach the timeout, and what
the takes to come add to the wire and to TX_POS gives `wire` and `pos`. -/
structure Delivering (wire : List Byte) (pos : Nat) (es : List Event) (s : State) : Prop where
  txLen : s.txLen.val = 8
  txact : s.status.txact = decide (s.txPos.val < 8)
  budget : s.status.txact = true → s.txElapsed.toNat + tickCount es < s.txTimeout.toNat
  wireDue : s.wire ++ (s.tx.toList.drop s.txPos.val).take (takeCount es) = wire
  posDue : min (s.txPos.val + takeCount es) 8 = pos

section Delivery

variable {wire : List Byte} {pos : Nat}

/-- A take of a frame that is all taken, and an event that is no take, add nothing. -/
theorem Delivering.of_same (h : Delivering wire pos (e :: es) s) (hsame : SameTransmission s t)
    (hnone : s.status.txact = false ∨ e ≠ .txTake) : Delivering wire pos es t := by
  obtain ⟨hlen, htx, hbudget, hwire, hpos⟩ := h
  obtain ⟨htxact, htxeq, htxLen, htxPos, htimeout, helapsed, hwireeq, -⟩ := hsame
  rw [tickCount_cons] at hbudget
  rw [takeCount_cons] at hwire hpos
  constructor
  case txLen => rwa [htxLen]
  case txact => rwa [htxact, htxPos]
  case budget =>
    intro ht
    have := hbudget (htxact ▸ ht)
    rw [helapsed, htimeout]
    omega
  all_goals obtain hdone | hno := hnone
  case wireDue.inl | posDue.inl =>
    have hall : s.txPos.val = 8 := by
      have := s.txPos.isLt
      have : ¬ s.txPos.val < 8 := by simpa [hdone] using htx
      omega
    have hdrop : s.tx.toList.drop 8 = [] := by simp
    simp_all
  case wireDue.inr => simpa [hwireeq, htxeq, htxPos, hno] using hwire
  case posDue.inr => simpa [htxPos, hno] using hpos

/-- The byte due is the next of what is to come on the wire (R121). -/
theorem Delivering.emitByte (h : Delivering wire pos (.txTake :: es) s) (hp : s.txPos.val < 8) :
    (s.emitByte hp).wire ++ ((s.emitByte hp).tx.toList.drop (s.emitByte hp).txPos.val).take (takeCount es) = wire ∧
      min ((s.emitByte hp).txPos.val + takeCount es) 8 = pos := by
  obtain ⟨-, -, -, hwire, hpos⟩ := h
  rw [takeCount_cons, if_pos rfl] at hwire hpos
  constructor
  · rw [List.drop_eq_getElem_cons (by simpa using hp), List.take_succ_cons] at hwire
    simpa [State.emitByte] using hwire
  · have hnext : (s.emitByte hp).txPos.val = s.txPos.val + 1 := rfl
    omega

/-- Every passive event hands on what is due: a take emits the byte due, and no tick reaches the timeout. -/
theorem Delivering.step (h : Delivering wire pos (e :: es) s) (he : e.passive = true) (hi : s.rstHigh = true)
    (heffect : EventEffect s e t) : Delivering wire pos es t := by
  cases htx : s.status.txact with
  | false => exact h.of_same (heffect.sameTransmission he (.inl htx)) (.inl htx)
  | true =>
    by_cases hevent : e ≠ .txTake ∧ e ≠ .tick
    · exact h.of_same (heffect.sameTransmission he (.inr hevent)) (.inr hevent.1)
    have hlen := h.txLen
    have hbudget := h.budget htx
    rw [tickCount_cons] at hbudget
    cases heffect with
    | reset | risen | instr | plain => cases he
    | dropped | stored | filled => simp at hevent
    | countedRx htx' | ended htx' => simp [htx] at htx'
    | kept _ _ htake htick =>
      refine absurd ⟨fun he => ?_, fun he => ?_⟩ hevent
      · simpa [htx] using htake hi he
      · simpa [htx] using (htick hi he).1
    | taken _ hp hne =>
      obtain ⟨hwire, hpos⟩ := h.emitByte hp
      have hleft : s.txPos.val + 1 < 8 := by omega
      exact ⟨hlen, htx.trans (decide_eq_true hleft).symm, fun _ => by simpa using hbudget, hwire, hpos⟩
    | completed _ hp hlast | turnedRound _ hp hlast =>
      obtain ⟨hwire, hpos⟩ := h.emitByte hp
      have hall : ¬ s.txPos.val + 1 < 8 := by omega
      exact ⟨hlen, (decide_eq_false hall).symm, fun ht => (nomatch ht), hwire, hpos⟩
    | countedTx =>
      obtain ⟨-, htxact, -, hwire, hpos⟩ := h
      rw [if_pos rfl] at hbudget
      rw [takeCount_cons, if_neg (by simp)] at hwire hpos
      refine ⟨hlen, htxact, fun _ => ?_, hwire, hpos⟩
      rw [State.countTx_txElapsed, State.countTx_txTimeout, satInc_toNat]
      omega
    | timedOut _ ht =>
      rw [BitVec.le_def, satInc_toNat] at ht
      rw [if_pos rfl] at hbudget
      omega

/-- At the end of the run the wire and TX_POS are those that were due. -/
theorem Delivering.run (h : Delivering wire pos es s) (hs : Inv s) (hi : s.rstHigh = true)
    (hes : ∀ e ∈ es, e.passive = true) :
    ∃ t, afterEvents es s = .next t ∧ t.wire = wire ∧ t.txPos.val = pos ∧ t.status.txact = decide (pos < 8) := by
  obtain ⟨t, ht, -, htxact, -, hwire, hpos⟩ := hs.run_passive (I := Delivering wire pos)
    (fun _ _ _ h => ⟨h.txLen, h.txact, h.budget, h.wireDue, h.posDue⟩)
    (fun _ _ _ _ _ he hi heffect h => h.step he hi heffect) hi hes h
  have hpos' : t.txPos.val = pos := by
    have hle := t.txPos.isLt
    have hnone : takeCount [] = 0 := rfl
    omega
  exact ⟨t, ht, by simpa [takeCount] using hwire, hpos', by rw [htxact, hpos']⟩

end Delivery

/-! The host starts the transmission. -/

/-- A run takes `cmd` by executing the instruction (R100). -/
theorem afterEvents_cons_cmd {i : Instr} (hi : s.rstHigh = true) (hw : wellFormed i = true)
    (hx : exec i (s.setPending es) = .next t) : afterEvents (cmd i :: es) s = afterEvents es t :=
  afterEvents_cons_instr hi (decodeEncodeRoundTrip i hw) hx

/-- After an accepted SEND all takes are due from TX[0] on (R120). -/
theorem run_of_send (hs : Inv s) (hi : s.rstHigh = true) (hidle : idle s) (hen : s.ctrl.en = true)
    (hes : ∀ e ∈ es, e.passive = true) (hticks : tickCount es < s.txTimeout.toNat) (hlen : s.txLen.val = 8) :
    ∃ t, afterEvents (cmd .send :: es) s = .next t ∧ t.wire = s.wire ++ s.tx.toList.take (takeCount es) ∧
      t.txPos.val = min (takeCount es) 8 ∧ t.status.txact = decide (min (takeCount es) 8 < 8) := by
  have hexec := exec_send_accepted (s := s.setPending es) hidle hen (by simp [hlen])
  obtain ⟨t, ht, hinv⟩ := (hs.setPending es).exec hi .send
  obtain rfl := Host.Outcome.next.inj (hexec.symm.trans ht)
  rw [afterEvents_cons_cmd hi rfl hexec]
  exact Delivering.run ⟨hlen, rfl, fun _ => by simpa using hticks, rfl, by simp⟩ hinv hi hes

/-- Settles O29: SEND makes all takes due from TX[0] on, and after BUILD the bytes of TX are those of the request. -/
theorem bytesLeaveInIndexOrder : Obligations.BytesLeaveInIndexOrder := by
  intro s es hs hi hidle hen hes hticks
  refine ⟨fun hlen => ?send, fun h1 h247 hf => ?build⟩
  case send =>
    obtain ⟨t, ht, hwire, hpos, htx⟩ := run_of_send hs hi hidle hen hes hticks hlen
    exact ⟨t, ht, hwire, hpos, htx.trans (decide_eq_decide.2 (by omega))⟩
  case build =>
    intro head
    have hexec := exec_build_accepted (s := s.setPending (cmd .send :: es)) hidle (unitInRange_iff.2 ⟨h1, h247⟩) hf
    obtain ⟨b, hb, hinv⟩ := (hs.setPending (cmd .send :: es)).exec hi .build
    obtain rfl := Host.Outcome.next.inj (hexec.symm.trans hb)
    obtain ⟨t, ht, hwire, -, -⟩ := run_of_send hinv hi hidle hen hes hticks rfl
    refine ⟨t, (afterEvents_cons_cmd hi rfl hexec).trans ht, ?_⟩
    have hhead : s.requestHead = head := by rw [State.requestHead, hf]; rfl
    rw [← hhead]
    exact hwire

/-! ## The bytes that arrive -/

/-- RX after bytes have arrived from RX_LEN on (R132). -/
structure Received (s : State) (bs : List Byte) (t : State) : Prop where
  rxLen : t.rxLen.val = s.rxLen.val + bs.length
  stored : ∀ (j : Nat) (h : j < bs.length), t.rxAt (s.rxLen.val + j) = bs[j]
  others : ∀ a, a < s.rxLen.val ∨ s.rxLen.val + bs.length ≤ a → t.rxAt a = s.rxAt a

theorem Received.nil (hlen : t.rxLen = s.rxLen) (hrx : t.rx = s.rx) (hdraw : t.rxDraw = s.rxDraw) : Received s [] t :=
  ⟨congrArg Fin.val hlen, fun _ h => absurd h (Nat.not_lt_zero _), fun a _ => State.rxAt_congr hrx hdraw a⟩

/-- The first byte stands at RX_LEN, and the others behind it. -/
theorem Received.cons {b : Byte} {bs : List Byte} {hp : s.rxLen.val < 256} (h : Received (s.storeByte b hp) bs t) :
    Received s (b :: bs) t := by
  obtain ⟨hlen, hstored, hothers⟩ := h
  have hnext : (s.storeByte b hp).rxLen.val = s.rxLen.val + 1 := rfl
  rw [hnext] at hlen hstored hothers
  refine ⟨by simp only [List.length_cons]; omega, fun j hj => ?_, fun a ha => ?_⟩
  · cases j with
    | zero => exact (hothers _ (.inl (Nat.lt_succ_self _))).trans (State.rxAt_storeByte_same hp)
    | succ j =>
      rw [List.getElem_cons_succ, ← hstored j (Nat.lt_of_succ_lt_succ hj)]
      congr 1
      omega
  · rw [List.length_cons] at ha
    rw [hothers a (by omega), State.rxAt_storeByte_other hp (by omega)]

/-- The events to come do not enter RX. -/
theorem Received.of_setPending {bs : List Byte} (h : Received (s.setPending es) bs t) : Received s bs t :=
  ⟨h.rxLen, h.stored, h.others⟩

/-- A run of received bytes that fit the window stores them one by one, and the last that fits closes it (R132, R134). -/
theorem afterEvents_lineRx (bs : List Byte) (hi : s.rstHigh = true) (hrx : s.status.rxact = true)
    (hopen : s.rxLen.val < s.maxRx.val) (hfit : s.rxLen.val + bs.length ≤ s.maxRx.val) :
    ∃ t, afterEvents (lineRx bs) s = .next t ∧ Received s bs t ∧
      t.status.rxact = decide (s.rxLen.val + bs.length < s.maxRx.val) ∧
      t.rxEnd = (if s.rxLen.val + bs.length = s.maxRx.val then .full else s.rxEnd) := by
  induction bs generalizing s with
  | nil =>
    refine ⟨_, afterEvents_nil s, .nil rfl rfl rfl, hrx.trans (decide_eq_true hopen).symm, ?_⟩
    rw [List.length_nil, if_neg (by omega)]
    rfl
  | cons b bs ih =>
    have hp : s.rxLen.val < 256 := by omega
    have htake := takeEvent_high (s := s.setPending (lineRx bs)) (.rxByte b) hi
    rw [List.length_cons] at hfit ⊢
    by_cases hfull : s.rxLen.val + 1 = s.maxRx.val
    · obtain rfl : bs = [] := List.length_eq_zero_iff.1 (by omega)
      have hrun := htake.trans (rxByte_of_full (s := s.setPending (lineRx [])) hrx hp hfull)
      refine ⟨_, (afterEvents_cons hrun).trans (afterEvents_nil _), .cons (hp := hp) (.nil rfl rfl rfl), ?_, ?_⟩
      · simp [hfull]
      · simp [hfull]
    · have hrun := htake.trans (rxByte_of_ne (s := s.setPending (lineRx bs)) hrx hp hfull)
      have hlen : ((s.setPending (lineRx bs)).storeByte b hp).rxLen.val = s.rxLen.val + 1 := rfl
      have hmax : ((s.setPending (lineRx bs)).storeByte b hp).maxRx = s.maxRx := rfl
      obtain ⟨t, ht, hreceived, hact, hend⟩ := ih (s := (s.setPending (lineRx bs)).storeByte b hp) hi hrx
        (by omega) (by omega)
      rw [hlen, hmax, Nat.add_right_comm] at hact hend
      exact ⟨t, (afterEvents_cons hrun).trans ht, hreceived.cons.of_setPending, hact, hend⟩

/-- Settles O31: the bytes are stored one by one, and the invariant has the window open for the first. -/
theorem receivedBytesAreStoredUnchanged : Obligations.ReceivedBytesAreStoredUnchanged := by
  intro s bs hs hi hrx hfit
  obtain ⟨t, ht, ⟨hlen, hstored, hothers⟩, hact, hend⟩ := afterEvents_lineRx bs hi hrx (hs.windowOpen hrx) hfit
  exact ⟨t, ht, hlen, hstored, hothers, hact, hend⟩

end Sys2Proof.Machine
end

-- ==== Proofs: the acceptance rule (O25, O38, O39, O40) ====
section
/-! Which frames VALIDATE_RTU accepts (R142): the rule on the bytes of RX, that one flipped bit breaks it (R111), and the same
rule on the bytes of a frame that the host loads (R101); and the refusal of the transfer commands while BUSY (R155). -/

namespace Sys2Proof.Machine

/-! ## Refusals -/

/-- Settles O25: each of the five commands asks for BUSY first, and refuses with the one error. -/
theorem transferCommandsAreRefusedWhileBusy : Obligations.TransferCommandsAreRefusedWhileBusy := by
  intro s i hi hb
  have hbusy : s.busy = true := State.busy_iff.2 hb
  obtain rfl | rfl | rfl | rfl | rfl := hi
  · exact exec_build_busy hbusy
  · exact exec_send_busy hbusy
  · exact exec_recv_busy hbusy
  · exact exec_validateRtu_busy hbusy
  · exact exec_validateTcp_busy hbusy

/-! ## The rule -/

/-- The acceptance rule of R142 on the frame RX[0..RX_LEN): at least 4 bytes, the expected unit, function code 3, and the CRC
of the bytes before it as the last two bytes, low byte first. -/
def State.Accepts (s : State) : Prop :=
  4 ≤ s.rxLen.val ∧ s.rxAt 0 = s.expUnit ∧ s.rxAt 1 = 0x03#8 ∧
    s.rxAt (s.rxLen.val - 2) = loByte (s.computedCrc s.rxLen.val) ∧
    s.rxAt (s.rxLen.val - 1) = hiByte (s.computedCrc s.rxLen.val)

section Rule

variable {s : State}

/-- A word is its two bytes. -/
theorem eq_catBytes_iff {c : Word} {hi lo : Byte} : c = catBytes hi lo ↔ lo = loByte c ∧ hi = hiByte c := by
  constructor
  · rintro rfl
    simp
  · rintro ⟨rfl, rfl⟩
    simp

theorem State.rtuVerdict_eq_ok_iff {n : Nat} :
    s.rtuVerdict n = .ok ↔
      s.rxAt 0 = s.expUnit ∧ s.rxAt 1 = Config.readFunction ∧ s.computedCrc n = s.receivedCrc n := by
  constructor
  · intro h
    by_cases hu : s.rxAt 0 = s.expUnit
    · by_cases hf : s.rxAt 1 = Config.readFunction
      · by_cases hc : s.computedCrc n = s.receivedCrc n
        · exact ⟨hu, hf, hc⟩
        · rw [State.rtuVerdict_crcFail hu hf hc] at h
          cases h
      · rw [State.rtuVerdict_fcMismatch hu hf] at h
        cases h
    · rw [State.rtuVerdict_unitMismatch hu] at h
      cases h
  · rintro ⟨hu, hf, hc⟩
    exact State.rtuVerdict_ok hu hf hc

/-- A frame that is not short is accepted when its verdict is OK. -/
theorem State.accepts_iff_rtuVerdict (hn : 4 ≤ s.rxLen.val) : s.Accepts ↔ s.rtuVerdict s.rxLen.val = .ok := by
  rw [State.rtuVerdict_eq_ok_iff, State.receivedCrc, eq_catBytes_iff]
  exact and_iff_right hn

/-- What VALIDATE_RTU answers in IDLE: OK by the rule, with the payload fields of an accepted frame, and no error (R142,
R147). -/
theorem exec_validateRtu_accepts (hs : idle s) :
    ∃ t, exec .validateRtu s = .next t ∧ (t.result = .ok ↔ s.Accepts) ∧
      (t.result = .ok → t.payOff = 2#9 ∧ t.payLen = BitVec.ofNat 9 (s.rxLen.val - 4)) ∧
      (t.result ≠ .ok → t.payOff = 0#9 ∧ t.payLen = 0#9) ∧
      t.status.err = s.status.err ∧ t.errCode = s.errCode ∧ t.status.done = true := by
  obtain hn | hn := Nat.lt_or_ge s.rxLen.val 4
  · have hshort : ¬ s.Accepts := fun h => absurd h.1 (Nat.not_le.2 hn)
    exact ⟨_, exec_validateRtu_short hs hn, iff_of_false (fun h => nomatch h) hshort, fun h => (nomatch h),
      fun _ => ⟨rfl, rfl⟩, rfl, rfl, rfl⟩
  · refine ⟨_, exec_validateRtu_long hs hn, (State.accepts_iff_rtuVerdict hn).symm, fun h => ?_, fun h => ?_, rfl, rfl, rfl⟩
    · exact ⟨if_pos h, if_pos h⟩
    · exact ⟨if_neg h, if_neg h⟩

end Rule

/-- Settles O38: the rule on the bytes is what the checks decide, and the payload of at most 252 bytes fits its register. -/
theorem rtuAcceptance : Obligations.RtuAcceptance := by
  intro s hs
  obtain ⟨t, ht, hok, hpayload, hnone, herr, hcode, hdone⟩ := exec_validateRtu_accepts hs
  refine ⟨t, ht, hok, fun h => ?_, hnone, herr, hcode, hdone⟩
  obtain ⟨hoff, hlen⟩ := hpayload h
  have hfits := s.rxLen.isLt
  refine ⟨congrArg BitVec.toNat hoff, ?_⟩
  rw [hlen, BitVec.toNat_ofNat]
  omega

/-! ## One flipped bit -/

section Corruption

variable {s r : State} {j : Nat}

/-- RX[0..n) cut at one of its bytes. -/
theorem State.rxBytes_eq_append (s : State) {n : Nat} (hj : j < n) :
    s.rxBytes n = s.rxBytes j ++ s.rxAt j :: (List.range (n - j - 1)).map fun i => s.rxAt (j + 1 + i) := by
  obtain ⟨m, rfl⟩ := Nat.exists_eq_add_of_lt hj
  have hm : j + m + 1 - j - 1 = m := by omega
  rw [hm, State.rxBytes, State.rxBytes, Nat.add_assoc, List.range_add, List.map_append, List.range_succ_eq_map]
  simp [Function.comp_def, Nat.add_assoc, Nat.add_comm 1]

/-- Frames that agree before the last two bytes have one computed CRC. -/
theorem State.computedCrc_congr {n : Nat} (h : ∀ i, i < n - 2 → r.rxAt i = s.rxAt i) : r.computedCrc n = s.computedCrc n :=
  congrArg crc16 (List.map_congr_left fun i hi => h i (List.mem_range.1 hi))

/-- Frames that differ in one byte before the last two have different computed CRCs (R111). -/
theorem State.computedCrc_ne {n : Nat} (hj : j < n - 2) (hne : r.rxAt j ≠ s.rxAt j)
    (hsame : ∀ i, i ≠ j → r.rxAt i = s.rxAt i) : r.computedCrc n ≠ s.computedCrc n := by
  have hfront : r.rxBytes j = s.rxBytes j :=
    List.map_congr_left fun i hi => hsame i (Nat.ne_of_lt (List.mem_range.1 hi))
  have hback : ((List.range (n - 2 - j - 1)).map fun i => r.rxAt (j + 1 + i)) =
      (List.range (n - 2 - j - 1)).map fun i => s.rxAt (j + 1 + i) :=
    List.map_congr_left fun i _ => hsame _ (by omega)
  rw [State.computedCrc, State.computedCrc, r.rxBytes_eq_append hj, s.rxBytes_eq_append hj, hfront, hback]
  exact crc16_ne_of_byte_ne _ _ hne

/-- Two accepted frames of one length do not differ in exactly one byte: before the CRC another byte makes another CRC, and the
CRC's own bytes follow from the others. -/
theorem State.Accepts.not_of_byte_ne (hs : s.Accepts) (hlen : r.rxLen = s.rxLen) (hj : j < s.rxLen.val)
    (hne : r.rxAt j ≠ s.rxAt j) (hsame : ∀ i, i ≠ j → r.rxAt i = s.rxAt i) : ¬ r.Accepts := by
  rintro ⟨-, -, -, hrlo, hrhi⟩
  obtain ⟨-, -, -, hslo, hshi⟩ := hs
  rw [hlen] at hrlo hrhi
  by_cases hbefore : j < s.rxLen.val - 2
  · refine State.computedCrc_ne hbefore hne hsame ?_
    rw [hsame _ (by omega), hslo] at hrlo
    rw [hsame _ (by omega), hshi] at hrhi
    rw [← catBytes_hi_lo (r.computedCrc _), ← hrlo, ← hrhi, catBytes_hi_lo]
  · have hcrc : r.computedCrc s.rxLen.val = s.computedCrc s.rxLen.val :=
      State.computedCrc_congr fun i hi => hsame i (by omega)
    rw [hcrc] at hrlo hrhi
    obtain rfl | rfl : j = s.rxLen.val - 2 ∨ j = s.rxLen.val - 1 := by omega
    · exact hne (hrlo.trans hslo.symm)
    · exact hne (hrhi.trans hshi.symm)

end Corruption

/-- Settles O39: a flipped bit makes another byte, and two accepted frames do not differ in one byte. -/
theorem oneBitCorruptionIsRejected : Obligations.OneBitCorruptionIsRejected := by
  rintro s r hs hr hlen - ⟨j, k, hj, hk, hflip, hsame⟩
  obtain ⟨s', hs', hsok, -⟩ := exec_validateRtu_accepts hs
  obtain ⟨r', hr', hrok, -⟩ := exec_validateRtu_accepts hr
  have hne : r.rxAt j ≠ s.rxAt j := hflip ▸ xor_bit_ne (s.rxAt j) hk
  exact ⟨s', r', hs', hr', fun h h' => (hsok.1 h).not_of_byte_ne hlen hj hne hsame (hrok.1 h')⟩

/-! ## A frame that the host loads -/

section Load

variable {s : State} {es : List Event}

/-- With `rst_n` high, a plain register write has its effect (R69). -/
theorem takeEvent_plain {w : BusWrite} {p : PlainWrite} (hi : s.rstHigh = true) (hd : decode w = .plain p) :
    takeEvent (.memWrite w) s = .next (s.writePlain p) := by
  rw [takeEvent_high _ hi, runEvent, hostWrite, hd]

/-- A run takes a plain register write by its effect (R69, R79). -/
theorem afterEvents_cons_plain {w : BusWrite} {p : PlainWrite} (hi : s.rstHigh = true) (hd : decode w = .plain p) :
    afterEvents (.memWrite w :: es) s = afterEvents es ((s.setPending es).writePlain p) :=
  afterEvents_cons (takeEvent_plain (s := s.setPending es) hi hd)

theorem State.writeRxbuf_of_closed (hrx : s.status.rxact = false) (i : Fin 256) (b : Byte) :
    s.writeRxbuf i b = s.setRx i.val b :=
  if_neg (Bool.eq_false_iff.1 hrx)

/-- Outside a window RX_LEN takes every value up to 256 (R39). -/
theorem State.writeRxLen_of_le (hrx : s.status.rxact = false) {v : Word} (hv : v.toNat < 257) :
    s.writeRxLen v = { s with rxLen := ⟨v.toNat, hv⟩ } :=
  (if_neg (Bool.eq_false_iff.1 hrx)).trans (dif_pos hv)

/-- The RXBUF writes of `loadrx` put the bytes into RX from the index on, and nothing else (R57, R101). -/
theorem afterEvents_loadrxFrom (bs : List Byte) (i : Nat) (hi : s.rstHigh = true) (hrx : s.status.rxact = false)
    (hfit : i + bs.length ≤ 256) :
    ∃ m, afterEvents (loadrxFrom i bs ++ es) s = afterEvents es { s with rx := m } ∧
      (∀ (j : Nat) (h : j < bs.length), { s with rx := m }.rxAt (i + j) = bs[j]) ∧
      (∀ a, a < i → { s with rx := m }.rxAt a = s.rxAt a) := by
  induction bs generalizing i s with
  | nil => exact ⟨s.rx, rfl, fun j h => absurd h (Nat.not_lt_zero j), fun _ _ => rfl⟩
  | cons b bs ih =>
    rw [List.length_cons] at hfit
    have hd : decode ⟨rxbufSlot i, b.setWidth 16⟩ = .plain (.rxbuf ⟨i, by omega⟩ b) := by
      rw [decode_rxbuf ⟨i, by omega⟩, loByte_setWidth]
    obtain ⟨m, hrun, hstored, hbelow⟩ := ih (s := s.setRx i b) (i + 1) hi hrx (by omega)
    refine ⟨m, ?run, fun j hj => ?stored, fun a ha => ?below⟩
    case run =>
      refine (afterEvents_cons_plain hi hd).trans ?_
      rw [State.writePlain, State.writeRxbuf_of_closed (by exact hrx)]
      exact hrun
    case stored =>
      cases j with
      | zero => exact (hbelow i (Nat.lt_succ_self i)).trans (s.rxAt_setRx_same i b)
      | succ j =>
        have h := hstored j (Nat.lt_of_succ_lt_succ hj)
        rwa [Nat.add_right_comm] at h
    case below => exact (hbelow a (by omega)).trans (s.rxAt_setRx_other b (by omega))

/-- `loadrx` leaves the bytes as the frame in RX (R101). -/
theorem afterEvents_loadrx (bs : List Byte) (hi : s.rstHigh = true) (hrx : s.status.rxact = false)
    (hfit : bs.length < 257) :
    ∃ m, afterEvents (loadrx bs ++ es) s = afterEvents es { s with rx := m, rxLen := ⟨bs.length, hfit⟩ } ∧
      ∀ (j : Nat) (h : j < bs.length), { s with rx := m }.rxAt j = bs[j] := by
  obtain ⟨m, hrun, hstored, -⟩ := afterEvents_loadrxFrom (s := s)
    (es := wr .rxLen (BitVec.ofNat 16 bs.length) :: es) bs 0 hi hrx (by omega)
  refine ⟨m, ?_, fun j h => by simpa using hstored j h⟩
  have hlen : (BitVec.ofNat 16 bs.length).toNat = bs.length := by
    rw [BitVec.toNat_ofNat]
    omega
  have hd : decode ⟨Reg.rxLen.slot, BitVec.ofNat 16 bs.length⟩ = .plain (.rxLen (BitVec.ofNat 16 bs.length)) := rfl
  rw [loadrx, List.append_assoc, List.singleton_append, hrun]
  refine (afterEvents_cons_plain (s := { s with rx := m }) hi hd).trans ?_
  rw [State.writePlain, State.writeRxLen_of_le (by exact hrx) (by rwa [hlen])]
  simp only [hlen]
  rfl

/-- The rule of R142 on a frame whose bytes stand in RX, said of the bytes. -/
theorem State.accepts_iff_bytes {bs : List Byte} (hlen : s.rxLen.val = bs.length)
    (h : ∀ (j : Nat) (hj : j < bs.length), s.rxAt j = bs[j]) :
    s.Accepts ↔ 4 ≤ bs.length ∧ bs[0]? = some s.expUnit ∧ bs[1]? = some 0x03#8 ∧
      bs.drop (bs.length - 2) = [loByte (crc16 (bs.take (bs.length - 2))), hiByte (crc16 (bs.take (bs.length - 2)))] := by
  rw [State.Accepts, hlen]
  refine and_congr_right fun hn => ?_
  have hcrc : s.computedCrc bs.length = crc16 (bs.take (bs.length - 2)) :=
    congrArg crc16 (State.rxBytes_eq_take (v := Vector.mk bs.toArray rfl) (Nat.sub_le _ _) fun i => h i.val i.isLt)
  have hlast : bs.length - 2 + 1 = bs.length - 1 := by omega
  have hend : bs.length - 1 + 1 = bs.length := by omega
  have hfirst : bs[0]? = some bs[0] := List.getElem?_eq_getElem (by omega)
  have hsecond : bs[1]? = some bs[1] := List.getElem?_eq_getElem (by omega)
  rw [hcrc, h 0 (by omega), h 1 (by omega), h (bs.length - 2) (by omega), h (bs.length - 1) (by omega), hfirst, hsecond,
    List.drop_eq_getElem_cons (i := bs.length - 2) (by omega), List.drop_eq_getElem_cons (i := bs.length - 2 + 1) (by omega)]
  simp [hlast, hend]

end Load

/-- Settles O40: the writes leave the bytes as the frame, VALIDATE_RTU goes by the rule, and the rule reads those bytes. -/
theorem hostLoadedFrameIsJudgedByItsBytes : Obligations.HostLoadedFrameIsJudgedByItsBytes := by
  intro s bs hi hs hfit
  obtain ⟨m, hrun, hstored⟩ := afterEvents_loadrx (s := s) (es := [cmd .validateRtu]) bs hi hs.2 (Nat.lt_succ_of_le hfit)
  obtain ⟨t, ht, hok, -⟩ := exec_validateRtu_accepts
    (s := State.setPending [] { s with rx := m, rxLen := ⟨bs.length, Nat.lt_succ_of_le hfit⟩ }) hs
  refine ⟨t.setPending [], ?_, hok.trans (State.accepts_iff_bytes rfl hstored)⟩
  rw [hrun, afterEvents_cons_cmd (by exact hi) rfl ht, afterEvents_nil]

end Sys2Proof.Machine
end

-- ==== Proofs: host writes and reads (O48, O49, O50, O52, O53, O54, O55) ====
section
/-! The host's accesses of the registers and the buffers (R22 to R57, R66 to R70): what a plain write stores, what each slot
reads, and a read after a write. -/

namespace Sys2Proof.Machine

section Writes

variable {s : State} {w : BusWrite} {rest : List Event} {v : Word}

/-! ## Writes -/

/-- With `rst_n` high, a step takes a plain register write by its effect (R69). -/
theorem step_plain {p : PlainWrite} (hi : s.rstHigh = true) (h : s.pending = .memWrite w :: rest)
    (hd : decode w = .plain p) : step s = .next ((s.setPending rest).writePlain p) :=
  (step_event h).trans (takeEvent_plain (s := s.setPending rest) hi hd)

/-! In an open window the receiver's registers are refused (R155). -/

theorem State.writeRxLen_of_open (hrx : s.status.rxact = true) : s.writeRxLen v = s.raiseError .busy := if_pos hrx

theorem State.writeMaxRx_of_open (hrx : s.status.rxact = true) : s.writeMaxRx v = s.raiseError .busy := if_pos hrx

theorem State.writeRxbuf_of_open (hrx : s.status.rxact = true) {i : Fin 256} {b : Byte} :
    s.writeRxbuf i b = s.raiseError .busy := if_pos hrx

/-! Outside a window they keep an illegal value out (R39, R40). -/

theorem State.writeRxLen_of_closed (hrx : s.status.rxact = false) (v : Word) :
    ∃ n : Fin 257, s.writeRxLen v = { s with rxLen := n } ∧
      n.val = if v.toNat ≤ 256 then v.toNat else s.rxLen.val := by
  rw [State.writeRxLen, if_neg (Bool.eq_false_iff.1 hrx)]
  split
  next hv => exact ⟨_, rfl, (if_pos (Nat.le_of_lt_succ hv)).symm⟩
  next hv => exact ⟨s.rxLen, rfl, (if_neg fun h => hv (Nat.lt_succ_of_le h)).symm⟩

theorem State.writeMaxRx_of_closed (hrx : s.status.rxact = false) (v : Word) :
    ∃ n : Fin 257, s.writeMaxRx v = { s with maxRx := n } ∧
      n.val = if 1 ≤ v.toNat ∧ v.toNat ≤ 256 then v.toNat else s.maxRx.val := by
  rw [State.writeMaxRx, if_neg (Bool.eq_false_iff.1 hrx)]
  split
  next hv => exact ⟨_, rfl, (if_pos ⟨hv.1, Nat.le_of_lt_succ hv.2⟩).symm⟩
  next hv => exact ⟨s.maxRx, rfl, (if_neg fun h => hv ⟨h.1, Nat.lt_succ_of_le h.2⟩).symm⟩

/-- The slots whose writes have no effect: reserved ones, TXBUF, and the read-only registers (R22, R69, R70). -/
theorem decode_ignored {idx : SlotIdx} (v : Word)
    (h : (0x021 ≤ idx.toNat ∧ idx.toNat ≤ 0x0FF) ∨ (0x013 < idx.toNat ∧ idx.toNat ≤ 0x020) ∨
      idx = 0x004#9 ∨ idx = 0x00C#9 ∨ idx = 0x00D#9 ∨ idx = 0x00F#9) : decode ⟨idx, v⟩ = .plain .ignored := by
  obtain ⟨hlo, hhi⟩ | ⟨hlo, hhi⟩ | rfl | rfl | rfl | rfl := h
  · by_cases htx : 0x040 ≤ idx.toNat ∧ idx.toNat < 0x048
    · have hslot : slotOf idx = .txbuf ⟨idx.toNat - 0x040, by omega⟩ := by
        rw [slotOf, if_neg (by omega), dif_pos htx]
      simp only [decode, hslot]
    · have hslot : slotOf idx = .reserved := slotOf_reserved (by omega)
      simp only [decode, hslot]
  · have hidx : idx = BitVec.ofNat 9 idx.toNat := by simp
    generalize idx.toNat = n at hlo hhi hidx
    subst hidx
    obtain rfl | rfl | rfl | rfl | rfl | rfl | rfl | rfl | rfl | rfl | rfl | rfl | rfl :
        n = 0x014 ∨ n = 0x015 ∨ n = 0x016 ∨ n = 0x017 ∨ n = 0x018 ∨ n = 0x019 ∨ n = 0x01A ∨ n = 0x01B ∨ n = 0x01C ∨
        n = 0x01D ∨ n = 0x01E ∨ n = 0x01F ∨ n = 0x020 := by omega
    all_goals rfl
  all_goals rfl

end Writes

/-- Settles O48: each register's write is plain, and its effect stores the bits. -/
theorem plainWritesStoreTheirBits : Obligations.PlainWritesStoreTheirBits := by
  intro s v rest hi
  exact ⟨fun h => step_plain (p := .irqEn v) hi h rfl, fun h => step_plain (p := .unitId (loByte v)) hi h rfl,
    fun h => step_plain (p := .func (loByte v)) hi h rfl, fun h => step_plain (p := .startAddr v) hi h rfl,
    fun h => step_plain (p := .quantity v) hi h rfl, fun h => step_plain (p := .expUnit (loByte v)) hi h rfl,
    fun h => step_plain (p := .txTimeout v) hi h rfl, fun h => step_plain (p := .rxTimeout v) hi h rfl,
    fun h => step_plain (p := .gapTicks v) hi h rfl⟩

/-- Settles O49: each of the three writes asks RXACT first, and then for a legal value. -/
theorem receiverRegisterWrites : Obligations.ReceiverRegisterWrites := by
  rintro s v i e rest hi h
  have hlen (he : e = wr .rxLen v) : step s = .next ((s.setPending rest).writeRxLen v) :=
    step_plain (p := .rxLen v) hi (he ▸ h) rfl
  have hmax (he : e = wr .maxRx v) : step s = .next ((s.setPending rest).writeMaxRx v) :=
    step_plain (p := .maxRx v) hi (he ▸ h) rfl
  have hbuf (he : e = .memWrite ⟨rxbufSlot i.val, v⟩) :
      step s = .next ((s.setPending rest).writeRxbuf i (loByte v)) :=
    step_plain hi (he ▸ h) (decode_rxbuf i v)
  refine ⟨fun hrx he => ?refused, fun hrx he => ?rxLen, fun hrx he => ?maxRx, fun hrx he => ?rxbuf⟩
  case refused =>
    obtain he | he | he := he
    · rw [hlen he, State.writeRxLen_of_open (by exact hrx)]; rfl
    · rw [hmax he, State.writeMaxRx_of_open (by exact hrx)]; rfl
    · rw [hbuf he, State.writeRxbuf_of_open (by exact hrx)]; rfl
  case rxLen =>
    obtain ⟨n, hwrite, hn⟩ := State.writeRxLen_of_closed (s := s.setPending rest) hrx v
    exact ⟨_, (hlen he).trans (congrArg _ hwrite), rfl, hn⟩
  case maxRx =>
    obtain ⟨n, hwrite, hn⟩ := State.writeMaxRx_of_closed (s := s.setPending rest) hrx v
    exact ⟨_, (hmax he).trans (congrArg _ hwrite), rfl, hn⟩
  case rxbuf =>
    have hwrite := State.writeRxbuf_of_closed (s := s.setPending rest) hrx i (loByte v)
    exact ⟨_, (hbuf he).trans (congrArg _ hwrite), rfl, State.rxAt_setRx_same _ _ _,
      fun a ha => (s.setPending rest).rxAt_setRx_other _ ha⟩

/-- Settles O50: a write of STATUS is plain, and clears the written bits among 3 to 8. -/
theorem statusWriteClearsTheWrittenFlags : Obligations.StatusWriteClearsTheWrittenFlags := by
  intro s v rest hi h
  exact ⟨_, step_plain (p := .status v) hi h rfl, (s.setPending rest).getLsbD_statusWord_clearStatus v, rfl, rfl⟩

/-- Settles O54: no reserved slot has a value, and the listed writes decode to the ignored one. -/
theorem reservedAndReadOnlyWritesAreIgnored : Obligations.ReservedAndReadOnlyWritesAreIgnored := by
  intro s idx v rest hi
  refine ⟨fun hidx h => ?read, fun hidx h => ?write⟩
  case read => rw [step_memRead hi h, State.readSlot_reserved hidx]
  case write => exact step_plain hi h (decode_ignored v hidx)

/-! ## Reads -/

/-- A list of codes that agrees with a code function gives each value its code. -/
theorem code_of_mem {α β : Type} {code : α → β} {l : List (α × β)} (hl : ∀ p ∈ l, code p.1 = p.2) {c : α} {n : β}
    (h : (c, n) ∈ l) : code c = n :=
  hl (c, n) h

/-- Settles O52: the slot of each register names it, and a read of it is its field. -/
theorem readsReturnTheFields : Obligations.ReadsReturnTheFields := by
  intro s
  refine ⟨?fields, fun hs => ?irqEn, fun c n hp hc => ?ctrl, fun k => ?status, fun c n hp hc => ?errCode,
    fun c n hp hc => ?rxEnd, fun c n hp hc => ?result, fun i => ?txbuf, fun i => ?rxbuf, fun i h => ?unwritten⟩
  case fields =>
    simp only [List.cons_append, List.nil_append, List.forall_mem_cons, List.not_mem_nil, false_implies, implies_true,
      and_true]
    repeat' apply And.intro
    all_goals rfl
  case irqEn => exact hs.irqEnBits
  case ctrl =>
    have hcode : s.ctrl.baud.code = n := (congrArg Baud.code hc).trans (code_of_mem (by decide) hp)
    exact hcode ▸ s.ctrl.word_eq
  case status =>
    refine (s.getLsbD_statusWord k).trans ?_
    simp only [State.busy, Bool.and_comm]
  case errCode => exact (congrArg ErrCode.code hc).trans (code_of_mem (by decide) hp)
  case rxEnd => exact (congrArg RxEnd.code hc).trans (code_of_mem (by decide) hp)
  case result => exact (congrArg Verdict.code hc).trans (code_of_mem (by decide) hp)
  case txbuf => exact congrArg s.readSlot (slotOf_txbuf i)
  case rxbuf => exact congrArg s.readSlot (slotOf_rxbuf i)
  case unwritten =>
    rw [← State.rxAt_of_unwritten h]
    exact congrArg s.readSlot (slotOf_rxbuf i)

/-- Settles O55: the slots name the registers, and each register's value is that of `State.reset`. -/
theorem resetRegisterValues : Obligations.ResetRegisterValues := by
  refine ⟨?registers, fun i => ?txbuf, fun i => State.rxAt_of_unwritten rfl, rfl, rfl, rfl, rfl, rfl⟩
  case registers =>
    simp only [List.cons_append, List.nil_append, List.forall_mem_cons, List.not_mem_nil, false_implies, implies_true,
      and_true, slotOf_reg]
    repeat' apply And.intro
    all_goals rfl
  case txbuf => rw [slotOf_txbuf, State.readSlot, State.reset_tx_getElem]; rfl

/-! ## A read after a write -/

/-- The host writes v to the register and reads the bits of the mask back. -/
def ReadsBack (s : State) (v : Word) (r : Reg) (mask : Word) : Prop :=
  ∃ t, afterEvents [wr r v, rd r] s = .next t ∧ t.busRdata = v &&& mask

section ReadBack

variable {s t : State} {w : BusWrite} {idx : SlotIdx} {v mask : Word} {r : Reg}

/-- A read that follows a write reads the state that the write left (R68). -/
theorem write_then_read (ht : takeEvent (.memWrite w) (s.setPending [.memRead idx]) = .next t) (hi : t.rstHigh = true) :
    ∃ u, afterEvents [.memWrite w, .memRead idx] s = .next u ∧ u.busRdata = t.readSlot (slotOf idx) := by
  have hread := (afterEvents_cons_memRead (idx := idx) hi).trans (afterEvents_nil _)
  exact ⟨_, (afterEvents_cons ht).trans hread, rfl⟩

/-- No plain register write touches the `rst_n` pin. -/
theorem PlainEffect.rstHigh {p : PlainWrite} (h : PlainEffect s p t) : t.rstHigh = s.rstHigh := by
  cases h <;> rfl

theorem plainWrite_then_read {p : PlainWrite} (hi : s.rstHigh = true) (hd : decode w = .plain p) :
    ∃ u, afterEvents [.memWrite w, .memRead idx] s = .next u ∧
      u.busRdata = ((s.setPending [.memRead idx]).writePlain p).readSlot (slotOf idx) :=
  write_then_read (takeEvent_plain (s := s.setPending [.memRead idx]) hi hd)
    ((writePlain_effect p (s.setPending [.memRead idx])).rstHigh.trans hi)

theorem instrWrite_then_read {i : Instr} (hi : s.rstHigh = true) (hd : decode w = .instr i)
    (ht : exec i (s.setPending [.memRead idx]) = .next t) :
    ∃ u, afterEvents [.memWrite w, .memRead idx] s = .next u ∧ u.busRdata = t.readSlot (slotOf idx) :=
  write_then_read ((takeEvent_instr (s := s.setPending [.memRead idx]) hi hd).trans ht)
    ((instrEffect_of_exec ht).sameSurroundings.rstHigh.trans hi)

/-- A register read after a plain write of it (R100). -/
theorem plainWrite_then_readReg {p : PlainWrite} (hi : s.rstHigh = true) (hd : decode ⟨r.slot, v⟩ = .plain p) :
    ∃ u, afterEvents [wr r v, rd r] s = .next u ∧ u.busRdata = ((s.setPending [rd r]).writePlain p).readReg r := by
  obtain ⟨u, hu, hread⟩ := plainWrite_then_read (idx := r.slot) hi hd
  rw [slotOf_reg] at hread
  exact ⟨u, hu, hread⟩

/-- A register that a plain write stores reads back what was stored. -/
theorem readsBack_plain {p : PlainWrite} (hi : s.rstHigh = true) (hd : decode ⟨r.slot, v⟩ = .plain p)
    (hvalue : ((s.setPending [rd r]).writePlain p).readReg r = v &&& mask) : ReadsBack s v r mask := by
  obtain ⟨u, hu, hread⟩ := plainWrite_then_readReg hi hd
  exact ⟨u, hu, hread.trans hvalue⟩

/-- A register of 8 bits reads back the low byte. -/
theorem setWidth_loByte (v : Word) : (loByte v).setWidth 16 = v &&& 0x00FF#16 := by
  have hmask := Nat.and_two_pow_sub_one_eq_mod v.toNat 8
  apply BitVec.eq_of_toNat_eq
  rw [BitVec.toNat_and, loByte, BitVec.toNat_setWidth, BitVec.extractLsb'_toNat]
  refine Eq.trans ?_ hmask.symm
  simp only [Nat.shiftRight_zero]
  omega

theorem readsBack_crc (hi : s.rstHigh = true) (v : Word) : ReadsBack s v .crc 0xFFFF#16 := by
  obtain ⟨u, hu, hread⟩ := instrWrite_then_read (idx := Reg.crc.slot) hi (decode_crc v) (exec_crcWrite v _)
  exact ⟨u, hu, hread.trans BitVec.and_allOnes.symm⟩

/-- A legal BAUD code is the one that reads back (R23). -/
theorem Baud.code_written {code : BitVec 3} (h : code.toNat ≤ 4) (old : Baud) : (Baud.written code old).code = code := by
  revert code
  cases old <;> decide

/-- CTRL after a configuration write, whether or not it ends a transfer (R159). -/
theorem exec_ctrlWrite_ctrl (en autorx : Bool) (baud : BitVec 3) (s : State) :
    ∃ t, exec (.ctrlWrite en autorx baud) s = .next t ∧
      t.ctrl = { en := en, autorx := autorx, baud := Baud.written baud s.ctrl.baud } := by
  by_cases h : s.ctrl.en = true ∧ en = false ∧ (s.status.txact = true ∨ s.status.rxact = true)
  · obtain ⟨hen, rfl, hb⟩ := h
    exact ⟨_, exec_ctrlWrite_aborts autorx baud hen (State.busy_iff.2 hb), by simp⟩
  · exact ⟨_, exec_ctrlWrite_stores autorx baud h, rfl⟩

/-- The fields of CTRL are its bits 4 to 0 (R23). -/
theorem ctrlFields_eq_and (v : Word) :
    (0#11 ++ v.extractLsb' 2 3 ++ BitVec.ofBool (v.getLsbD 1) ++ BitVec.ofBool (v.getLsbD 0) : Word) = v &&& 0x001F#16 := by
  apply BitVec.eq_of_getLsbD_eq
  intro k hk
  have hmask : (0x001F#16).getLsbD k = decide (k < 5) := by
    have hlow : 0x001F#16 = (BitVec.allOnes 5).setWidth 16 := rfl
    rw [hlow, BitVec.getLsbD_setWidth, BitVec.getLsbD_allOnes]
    simp [hk]
  simp only [BitVec.getLsbD_append, BitVec.getLsbD_and, BitVec.getLsbD_extractLsb', BitVec.getLsbD_ofBool, hmask]
  match k with
  | 0 => simp
  | 1 => simp
  | k + 2 =>
    have hfields : decide (k < 3) = decide (k + 2 < 5) := decide_eq_decide.2 (by omega)
    simp [hfields, Nat.add_comm 2 k, Bool.and_comm]

theorem readsBack_ctrl (hi : s.rstHigh = true) (hsrst : v.getLsbD 15 = false) (hbaud : (v.extractLsb' 2 3).toNat ≤ 4) :
    ReadsBack s v .ctrl 0x001F#16 := by
  have hd : decode ⟨Reg.ctrl.slot, v⟩ = .instr (.ctrlWrite (v.getLsbD 0) (v.getLsbD 1) (v.extractLsb' 2 3)) := by
    rw [← decodeCtrl_ctrlWrite hsrst]
    exact decode_ctrl v
  obtain ⟨t, ht, hctrl⟩ := exec_ctrlWrite_ctrl (v.getLsbD 0) (v.getLsbD 1) (v.extractLsb' 2 3) (s.setPending [rd .ctrl])
  obtain ⟨u, hu, hread⟩ := instrWrite_then_read (idx := Reg.ctrl.slot) hi hd ht
  refine ⟨u, hu, ?_⟩
  rw [hread, slotOf_reg, State.readSlot, State.readReg, Ctrl.word_eq, hctrl, Baud.code_written hbaud, ctrlFields_eq_and]

/-- RX_LEN and MAX_RX are at most 256, so a read of 16 bits loses nothing. -/
theorem ofNat_val_toNat (n : Fin 257) : (BitVec.ofNat 16 n.val).toNat = n.val := by
  rw [BitVec.toNat_ofNat]
  omega

end ReadBack

/-- Settles O53: a read sees the state that the write left, and the register's own law says what stands there. -/
theorem readAfterWriteReturnsTheBits : Obligations.ReadAfterWriteReturnsTheBits := by
  intro s v hi
  refine ⟨fun p hp => ?stored, readsBack_ctrl hi, fun hrx => ⟨?rxLen, ?maxRx⟩, fun hrx i => ?rxbuf⟩
  case stored =>
    change ReadsBack s v p.1 p.2
    simp only [List.mem_cons, List.not_mem_nil, or_false] at hp
    obtain rfl | rfl | rfl | rfl | rfl | rfl | rfl | rfl | rfl | rfl := hp
    · exact readsBack_plain (p := .irqEn v) hi rfl rfl
    · exact readsBack_plain (p := .unitId (loByte v)) hi rfl (setWidth_loByte v)
    · exact readsBack_plain (p := .func (loByte v)) hi rfl (setWidth_loByte v)
    · exact readsBack_plain (p := .expUnit (loByte v)) hi rfl (setWidth_loByte v)
    · exact readsBack_plain (p := .startAddr v) hi rfl BitVec.and_allOnes.symm
    · exact readsBack_plain (p := .quantity v) hi rfl BitVec.and_allOnes.symm
    · exact readsBack_crc hi v
    · exact readsBack_plain (p := .txTimeout v) hi rfl BitVec.and_allOnes.symm
    · exact readsBack_plain (p := .rxTimeout v) hi rfl BitVec.and_allOnes.symm
    · exact readsBack_plain (p := .gapTicks v) hi rfl BitVec.and_allOnes.symm
  case rxLen =>
    obtain ⟨u, hu, hread⟩ := plainWrite_then_readReg (r := .rxLen) (v := v) (p := .rxLen v) hi rfl
    obtain ⟨n, hwrite, hn⟩ := State.writeRxLen_of_closed (s := s.setPending [rd .rxLen]) hrx v
    rw [State.writePlain, hwrite] at hread
    exact ⟨u, hu, (congrArg BitVec.toNat hread).trans ((ofNat_val_toNat n).trans hn)⟩
  case maxRx =>
    obtain ⟨u, hu, hread⟩ := plainWrite_then_readReg (r := .maxRx) (v := v) (p := .maxRx v) hi rfl
    obtain ⟨n, hwrite, hn⟩ := State.writeMaxRx_of_closed (s := s.setPending [rd .maxRx]) hrx v
    rw [State.writePlain, hwrite] at hread
    exact ⟨u, hu, (congrArg BitVec.toNat hread).trans ((ofNat_val_toNat n).trans hn)⟩
  case rxbuf =>
    obtain ⟨u, hu, hread⟩ := plainWrite_then_read (idx := rxbufSlot i.val) hi (decode_rxbuf i v)
    refine ⟨u, hu, ?_⟩
    rw [hread, slotOf_rxbuf, State.readSlot, State.writePlain, State.writeRxbuf_of_closed (by exact hrx),
      State.rxAt_setRx_same, setWidth_loByte]

end Sys2Proof.Machine
end

-- ==== Proofs: the pins (O56, O57, O58) ====
section
/-! The `rst_n` pin (R183), the interrupt output (R170) and the output ports of the transmitter (R19). -/

namespace Sys2Proof.Machine

variable {s : State} {e : Event} {rest : List Event}

/-! ## The reset pin -/

theorem resetPin_fall (hi : s.rstHigh = true) : resetPin false s = s.hardReset := if_pos hi

theorem resetPin_rise (s : State) : resetPin true s = { s with rstHigh := true } := rfl

/-- With `rst_n` low, a step takes the next event as a held block does (R183). -/
theorem step_heldEvent (hi : s.rstHigh = false) (h : s.pending = e :: rest) :
    step s = .next (heldEvent e (s.setPending rest)) :=
  (step_event h).trans (takeEvent_low (s := s.setPending rest) e hi)

/-- A held block ignores every event but a read, which returns 0 (R183). -/
theorem heldEvent_eq (he : ∀ b, e ≠ .rstN b) (s : State) :
    heldEvent e s = { s with busRdata := if ∃ idx, e = .memRead idx then 0x0000#16 else s.busRdata } := by
  cases e with
  | memRead idx => rw [if_pos ⟨idx, rfl⟩]; rfl
  | rstN level => exact absurd rfl (he level)
  | memWrite | txTake | rxByte | tick => rw [if_neg (by simp)]; rfl

/-- The outputs of a held block are at rest (R183). -/
theorem Inv.held_outputs (hs : Inv s) (hi : s.rstHigh = false) :
    s.driverEnable = false ∧ s.txValid = false ∧ s.txData = 0x00#8 ∧ s.irq = false := by
  have htx : s.status.txact = false := congrArg (·.status.txact) (hs.heldReset hi)
  have hen : s.irqEn = 0x0000#16 := congrArg State.irqEn (hs.heldReset hi)
  exact ⟨htx, htx, State.txData_of_not_txact htx, by simp [State.irq, hen]⟩

/-- Settles O56: a fall resets, a held block ignores all but a rise, and the invariant holds the reset state till then. -/
theorem hardwareResetHoldsTheBlock : Obligations.HardwareResetHoldsTheBlock := by
  intro s rest
  refine ⟨fun hi h => ?fall, fun hi e h he => ?held, fun hi h => ?rise, fun hs hi => ⟨hs.heldReset hi, hs.held_outputs hi⟩⟩
  case fall => exact (step_runEvent hi h).trans (congrArg _ (resetPin_fall (s := s.setPending rest) hi))
  case held => rw [step_heldEvent hi h, heldEvent_eq he]; rfl
  case rise => rw [step_heldEvent hi h, heldEvent, resetPin_rise]; rfl

/-! ## The interrupt output -/

/-- The mask 0x01F8 of R170 has the bits 3 to 8. -/
theorem getLsbD_irqMask (k : Nat) : (0x01F8#16).getLsbD k = (decide (3 ≤ k) && decide (k ≤ 8)) := by
  have hmask : 0x01F8#16 = (BitVec.allOnes 6).setWidth 16 <<< 3 := rfl
  rw [hmask, BitVec.getLsbD_shiftLeft, BitVec.getLsbD_setWidth, BitVec.getLsbD_allOnes, Bool.eq_iff_iff]
  simp only [Bool.and_eq_true, Bool.not_eq_true', decide_eq_true_eq, decide_eq_false_iff_not]
  omega

/-- `irq` is an enabled flag: some bit of 3 to 8 that is set in STATUS and in IRQ_EN (R170). -/
theorem State.irq_iff_exists :
    s.irq = true ↔ ∃ k, 3 ≤ k ∧ k ≤ 8 ∧ s.statusWord.getLsbD k = true ∧ s.irqEn.getLsbD k = true := by
  have hbit : ∀ k, (s.statusWord &&& s.irqEn &&& 0x01F8#16).getLsbD k = true ↔
      3 ≤ k ∧ k ≤ 8 ∧ s.statusWord.getLsbD k = true ∧ s.irqEn.getLsbD k = true := fun k => by
    rw [BitVec.getLsbD_and, BitVec.getLsbD_and, getLsbD_irqMask]
    simp only [Bool.and_eq_true, decide_eq_true_eq]
    exact ⟨fun ⟨⟨hflag, hen⟩, h3, h8⟩ => ⟨h3, h8, hflag, hen⟩, fun ⟨h3, h8, hflag, hen⟩ => ⟨⟨hflag, hen⟩, h3, h8⟩⟩
  rw [State.irq, bne_iff_ne]
  constructor
  · intro hne
    refine Classical.byContradiction fun hno => hne (BitVec.eq_of_getLsbD_eq fun k _ => ?_)
    rw [BitVec.getLsbD_zero, ← Bool.not_eq_true]
    exact fun hk => hno ⟨k, (hbit k).1 hk⟩
  · rintro ⟨k, hk⟩ hzero
    have hset := (hbit k).2 hk
    rw [hzero, BitVec.getLsbD_zero] at hset
    cases hset

/-- Settles O57: the bits 3 to 8 of STATUS are the six flags. -/
theorem interruptIsAnEnabledFlag : Obligations.InterruptIsAnEnabledFlag := by
  intro s
  rw [State.irq_iff_exists, ← s.statusWord_done, ← s.statusWord_txdone, ← s.statusWord_rxdone, ← s.statusWord_rxto,
    ← s.statusWord_err, ← s.statusWord_drop]
  constructor
  · rintro ⟨k, h3, h8, h⟩
    obtain rfl | rfl | rfl | rfl | rfl | rfl := stickyBit_cases h3 h8
    · exact .inl h
    · exact .inr (.inl h)
    · exact .inr (.inr (.inl h))
    · exact .inr (.inr (.inr (.inl h)))
    · exact .inr (.inr (.inr (.inr (.inl h))))
    · exact .inr (.inr (.inr (.inr (.inr h))))
  · rintro (h | h | h | h | h | h)
    · exact ⟨3, by decide, by decide, h⟩
    · exact ⟨4, by decide, by decide, h⟩
    · exact ⟨5, by decide, by decide, h⟩
    · exact ⟨6, by decide, by decide, h⟩
    · exact ⟨7, by decide, by decide, h⟩
    · exact ⟨8, by decide, by decide, h⟩

/-! ## The transmitter's ports -/

/-- Settles O58: the ports are TXACT and the byte due, an accepted SEND makes TX[0] due, and TXACT is 0 in a window. -/
theorem outputPortsFollowTheTransmitter : Obligations.OutputPortsFollowTheTransmitter := by
  intro s
  refine ⟨rfl, rfl, fun htx hp => State.txData_of_txact htx hp, State.txData_of_not_txact, fun hs hen hlen => ?send,
    fun hs hrx => ?window⟩
  case send => exact ⟨_, exec_send_accepted hs hen hlen, rfl, rfl, State.txData_of_txact rfl (Nat.succ_pos 7)⟩
  case window =>
    have htx : s.status.txact = false := Bool.eq_false_iff.2 fun htx => hs.oneDirection ⟨htx, hrx⟩
    exact ⟨htx, htx⟩

end Sys2Proof.Machine
end
